-- ==== Sys2Proof/Word.lean ====
section
/-! DEFINITION. The word types of the block (rules R11, R30, R70): a byte, a four-bit half, the
12-bit baud divisor and the 12-bit command word. Bit 0 is the least significant bit of each. -/

namespace Sys2Proof

/-- A byte: a buffered item, an index's storage word, a peripheral register (R9, R11, R30). -/
abbrev Byte := BitVec 8

/-- The upper half of the baud divisor (R35). -/
abbrev Nibble := BitVec 4

/-- The baud divisor (R9, R35). -/
abbrev Divisor := BitVec 12

/-- A command word `cmd[11:0]` (R70). -/
abbrev Cmd := BitVec 12

end Sys2Proof
end

