-- ==== Sys2Proof/Config.lean ====
section
/-! DEFINITION. The parameters of rule R9: the configuration a machine carries (plain data, changed by
no step), and the free value behind everything the spec calls unspecified. -/

namespace Sys2Proof

/-- The six peripheral registers, by role (R29, R30; conflict C1: the six names win over the counts). -/
inductive Reg where
  | baudHigh | baudLow | controlA | controlB | controlC | data
  deriving DecidableEq, Repr

/-- `BITPOS` (R36): where each named field lies in its register. The defaults are R36's table, which the
spec itself marks as general knowledge of the ATmega family (PRESUMED, log entry 23); no rule of the
block reads a position. Each position is the field's lowest bit. -/
structure BitPos where
  rxc : Nat := 7
  udre : Nat := 5
  rxcie : Nat := 7
  rxen : Nat := 4
  txen : Nat := 3
  /-- The two-bit character-size field, 3 for eight data bits. -/
  charSize : Nat := 1
  /-- The one-bit stop-bit select, 0 for one stop bit. -/
  stopSelect : Nat := 3
  /-- The two-bit parity mode, 0 for none. -/
  parityMode : Nat := 4
  deriving DecidableEq, Repr

/-- `REG_ADDR` (R9, R30): the address of each register, nothing where it is left open (D17). -/
structure RegAddr where
  baudHigh : Option Nat := none
  baudLow : Option Nat := none
  controlA : Option Nat := none
  controlB : Option Nat := none
  controlC : Option Nat := none
  data : Option Nat := none
  deriving DecidableEq, Repr

/-- The address of a register by its role. -/
def RegAddr.of (a : RegAddr) : Reg → Option Nat
  | .baudHigh => a.baudHigh
  | .baudLow => a.baudLow
  | .controlA => a.controlA
  | .controlB => a.controlB
  | .controlC => a.controlC
  | .data => a.data

/-- The base `BUF` and the addresses of the three ring variables (R50), nothing where left open. -/
structure StorageAddr where
  buf : Option Nat := none
  head : Option Nat := none
  tail : Option Nat := none
  lastError : Option Nat := none
  deriving DecidableEq, Repr

/-- The parameters of R9, one field each but for the derived `MASK` and `USABLE`, and the open addresses of
R50; their legal values are `Config.wf` (WellFormed.lean). A claim over every state quantifies over them (log
entry 1). Errs (D2, D4): toward unprovable for claims over every configuration; a claim that fixes `N` or a
code of `last_error` holds only of a build with that value. -/
structure Config where
  /-- Capacity of the ring buffer in slots; the default 32 is D2's. -/
  N : Nat := 32
  /-- `DATA_W`, the width of a buffered item: 8, as the type `Byte` of `State.buf` has it. -/
  dataW : Nat := 8
  /-- `IDX_W`, the storage width of `head` and `tail`: 8, as their type `Byte` has it. -/
  idxW : Nat := 8
  /-- `ERR_NONE` as a byte; 0 is the value zeroing at startup produces (R78). -/
  errNone : Byte := 0x00
  /-- `ERR_FULL` as a byte; the default -1 is D4's. -/
  errFull : Byte := 0xFF
  /-- `ERR_W`, the storage width of `last_error`: 8, as its type `Byte` has it. -/
  errW : Nat := 8
  /-- `EMPTY_SENTINEL` (R77): fixed, 0x00. -/
  emptySentinel : Byte := 0x00
  /-- `NEWLINE` (R79): fixed, 0x0A. -/
  newline : Byte := 0x0A
  /-- `BAUD_DIV`, OPEN (D18); the default 0 is the model's (DESIGN CHOICE, log entry 1). -/
  baudDiv : Divisor := 0
  /-- `TARGET_PART`, OPEN (D1): nothing by default (log entry 24). No rule reads it. -/
  targetPart : Option String := none
  /-- `REG_ADDR`, OPEN (D17): nothing by default (log entry 24). No rule reads it. -/
  regAddr : RegAddr := {}
  bitPos : BitPos := {}
  /-- `RX_HW_DEPTH`, the bytes the part's receiver holds before the handler reads; the value D12 takes is 1.
  R101 is written for a receiver of one byte and has no other case, so no rule reads this field. Errs (D12):
  toward unprovable against a deeper receiver (the model loses bytes the part would keep); see log
  entry 11. -/
  rxHwDepth : Nat := 1
  /-- The open addresses of R50 (log entry 24). No rule reads them. -/
  storageAddr : StorageAddr := {}
  deriving DecidableEq, Repr

/-- `MASK = N - 1` (R9). -/
def Config.mask (c : Config) : Nat := c.N - 1

/-- `USABLE`, the most bytes held at once (R9). -/
def Config.usable (c : Config) : Nat := c.N - 1

/-- The terminator of `sendLine`'s input (R79). -/
def Config.terminator : Byte := 0x00

/-- The free value: the `n`-th draw of an unspecified byte (R31, R42, R185, U1, U2; log entries 3, 4). -/
opaque Config.freeByte : Nat → Byte

end Sys2Proof
end

