-- ==== Sys2Proof/Syntax.lean ====
section
/-! DEFINITION. The operations of the block: one constructor for each of the fourteen rows of
spec/opcode_table.json (rule R72). The only operand is one byte, used as is (R71). -/

namespace Sys2Proof

/-- The complete set of operations (R72); the comment after each is its mnemonic and the rule that gives
its meaning. -/
inductive Instr where
  | reset                    -- RESET (R185)
  | initRxIrq                -- INIT_RX_IRQ (R91)
  | rxArrive (b : Byte)      -- RX_ARRIVE (R101)
  | isrRxc                   -- ISR_RXC (R103)
  | gbCheck                  -- GB_CHECK (R116)
  | gbAdvance                -- GB_ADVANCE (R117)
  | gbRead                   -- GB_READ (R118)
  | getError                 -- GET_ERROR (R121)
  | isrTxc                   -- ISR_TXC (R165)
  | initTxOnly               -- INIT_TX_ONLY (R92)
  | initRxPolled             -- INIT_RX_POLLED (R93)
  | initTxrxPolled           -- INIT_TXRX_POLLED (R94)
  | sendByte (b : Byte)      -- SEND_BYTE (R151)
  | txDrain                  -- TX_DRAIN (R152)
  deriving DecidableEq, Repr

/-- The four agents (R14). -/
inductive Agent where
  | env | producer | consumer | hook
  deriving DecidableEq, Repr

end Sys2Proof
end

