-- ==== Sys2Proof/Machine/State.lean ====
section
/-! DEFINITION. The state of the machine: the whole tuple of rule R20, the configuration it carries (R9),
the observation sequences of R15, and the model's own fields (schedule, call in progress, returned values,
draw counter); the reasons a step can stop; the state after reset (R42). -/

namespace Sys2Proof.Machine

/-- `frame_fmt` (R34). -/
inductive FrameFmt where
  | unset | f8n1
  deriving DecidableEq, Repr

/-- `cphase` (R27): the position of the consumer inside one `getByte` call. -/
inductive CPhase where
  | idle | nonempty | advanced
  deriving DecidableEq, Repr

/-- A value handed to a caller (R13's `return`, R43's points `get` and `err`; log entry 8). -/
inductive Ret where
  /-- what `getByte` returned -/
  | getByte (b : Byte)
  /-- what `GET_ERROR` returned, the storage byte of the signed code -/
  | getError (e : Byte)
  deriving DecidableEq, Repr

/-- The observation sequences of R15 (and `wire`, R152). No rule reads them (log entry 9). -/
structure Obs where
  /-- every byte of an `RX_ARRIVE` step -/
  arrived : List Byte := []
  /-- those the receiver hardware kept -/
  latched : List Byte := []
  /-- those `ISR_RXC` stored -/
  accepted : List Byte := []
  /-- those `ISR_RXC` read and did not store -/
  dropped : List Byte := []
  /-- the values `GB_READ` returned -/
  delivered : List Byte := []
  /-- the bytes the transmitter latched -/
  wire : List Byte := []
  deriving DecidableEq, Repr

/-- The ring storage `BUF`: (index, byte) cells in canonical form, see `Memory.wf` in Machine/Ops.lean. -/
abbrev Memory := List Host.Cell

/-- What a slot with no cell reads as: the reset contents, 0x00 (R21, R42). -/
def Memory.unlisted : Byte := 0x00

/-- The machine's state. -/
structure State where
  /-- the parameters of R9, changed by no step (log entry 1) -/
  cfg : Config
  -- the ring (R21 to R24)
  /-- `buf` -/
  buf : Memory
  /-- `head`, the slot most recently written (R22, conflict C5). Errs (D3, also of `tail`): exact if the
  original used an unsigned byte; toward proving for a build with signed indices and `N = 256` (log
  entry 15). -/
  head : Byte
  /-- `tail`, the slot most recently read (R23) -/
  tail : Byte
  /-- `last_error`, the storage byte of the signed code (R24). Errs (D4): both ways for a claim that depends
  on a literal code, so claims use the fields of `cfg` (log entry 15). -/
  lastError : Byte
  -- the hardware interface (R31 to R37)
  /-- `rx_data`, the data register's read side -/
  rxData : Byte
  /-- `tx_data`, the data register's write side -/
  txData : Byte
  /-- `rxc`, receive-complete, in control-A -/
  rxc : Bool
  /-- `udre`, data-empty, in control-A -/
  udre : Bool
  /-- `rxen`, receiver enable, in control-B -/
  rxen : Bool
  /-- `txen`, transmitter enable, in control-B -/
  txen : Bool
  /-- `rxcie`, receive-complete interrupt enable, in control-B -/
  rxcie : Bool
  /-- `frame_fmt`, control-C -/
  frameFmt : FrameFmt
  /-- `baud_h`, baud-high -/
  baudH : Nibble
  /-- `baud_l`, baud-low -/
  baudL : Byte
  /-- `gie`, the processor's global interrupt enable -/
  gie : Bool
  -- sequencing (R27, R39, R40)
  /-- `inited`, one of the four init routines has run -/
  inited : Bool
  /-- `cphase` -/
  cphase : CPhase
  /-- `hw_overrun`, ghost -/
  hwOverrun : Bool
  /-- the observation sequences of R15 -/
  obs : Obs
  -- the model's own fields
  /-- the byte of the `SEND_BYTE` call that busy-waits, if one does (R151's hold; log entry 7) -/
  held : Option Byte
  /-- the values handed to callers, oldest first (log entry 8) -/
  returned : List Ret
  /-- how many free values have been drawn (log entry 26) -/
  draws : Nat
  /-- the open schedule: the command words offered and not yet taken, next first (R167; log entry 5).
  Errs (D11): toward unprovable (more runs than the hardware, including late handlers that cause hardware
  overrun). -/
  sched : List Cmd
  deriving DecidableEq, Repr

/-- Why the machine stops with a fault. -/
inductive Fault where
  /-- A read or write of `buf[i]` with `i` not below `N`: the spec has no such slot (R13, R21). Raised by
  `State.slot?` and `State.storeSlot` for GB_READ and ISR_RXC, and only in states R26 says no run reaches.
  Safe (log entry 18). -/
  | noSuchSlot
  deriving DecidableEq, Repr

/-- Why the model gives a step no meaning (R184). Errs (D8, D16, D22): toward unprovable. Its clause
`WRONG_CONTEXT` for a CONSUMER operation issued from the interrupt context has no state to arise in: the
handler is one step (log entry 27). -/
inductive Refusal where
  /-- An operation without a meaning yet; no arm of `exec` answers it. Safe. -/
  | notModelled (mnemonic : String)
  /-- RESERVED_ENCODING: a command word reserved by R74; raised by the fetch. Safe (D8). -/
  | reservedEncoding
  /-- INIT_TWICE: an init operation when `inited` is 1. Safe (D16). -/
  | initTwice
  /-- NOT_INITIALISED: GB_CHECK or SEND_BYTE when `inited` is 0. Safe (D16). -/
  | notInitialised
  /-- OUT_OF_SEQUENCE: GB_ADVANCE or GB_READ in the wrong phase. Safe (D16). -/
  | outOfSequence
  /-- CONSUMER_BUSY: another CONSUMER call inside a `getByte`. Safe (D16). -/
  | consumerBusy
  /-- TX_DISABLED: SEND_BYTE when `txen` is 0. Safe (D16, U9). -/
  | txDisabled
  /-- WRONG_CONTEXT: ISR_RXC issued while its enabling condition is false. Safe (D16, V16, V17). -/
  | wrongContext
  /-- BAD_CONFIG: the configuration is ill-formed; raised by the fetch. Safe (R10, D22; log entry 19). -/
  | badConfig
  deriving DecidableEq, Repr

/-- The state right after reset (R42, R186), in the default configuration and with an empty schedule.
`rxData`, `txData`, `baudH`, `baudL` are unspecified there: 0 is the model's value (DESIGN CHOICE, unsafe,
log entry 2). Errs (D5, D6): `last_error`, `rxc`, `udre`, the enables and `gie` are the spec's own choice,
toward proving for a part or build that starts otherwise (log entry 14). -/
def State.reset : State where
  cfg := {}
  buf := []
  head := 0
  tail := 0
  lastError := 0
  rxData := 0
  txData := 0
  rxc := false
  udre := true
  rxen := false
  txen := false
  rxcie := false
  frameFmt := .unset
  baudH := 0
  baudL := 0
  gie := false
  inited := false
  cphase := .idle
  hwOverrun := false
  obs := {}
  held := none
  returned := []
  draws := 0
  sched := []

end Sys2Proof.Machine
end

