-- ==== Sys2Proof/Machine/Flags.lean ====
section
/-! DEFINITION. The flag-like elements of rule R28 (`last_error`, `rxc`, `udre`) and the global interrupt
enable (R37): who sets and who clears each. There are no condition codes. -/

namespace Sys2Proof.Machine

/-- `raise Overflow()` (R160): the one write `last_error <- ERR_FULL`; it transfers no control. The dropped
byte is observed (R15). -/
def State.raiseOverflow (s : State) (b : Byte) : State :=
  { s with lastError := s.cfg.errFull, obs := { s.obs with dropped := s.obs.dropped ++ [b] } }

/-- The pending receive interrupt, the level `rxc & rxcie` (R40, `irq_rxc` of R43). -/
def State.irqRxc (s : State) : Bool := s.rxc && s.rxcie

/-- The receive-complete interrupt may be taken: `rxc`, `rxcie` and `gie` (R163). -/
def State.rxcTaken (s : State) : Bool := s.irqRxc && s.gie

/-- The transmitter holds a byte it may latch: `txen` and not `udre` (R152). -/
def State.txPending (s : State) : Bool := s.txen && !s.udre

/-- Entering the masked window of GB_CHECK: `gie <- 0` (R116, R132). -/
def State.enterWindow (s : State) : State := { s with gie := false }

/-- Leaving the masked window: the value `gie` had on entry is restored, not forced on (R116, D10; log
entry 25). -/
def State.leaveWindow (s : State) (saved : Bool) : State := { s with gie := saved }

/-- The global unmask of INIT_RX_IRQ, its last step (R91, R95). -/
def State.unmask (s : State) : State := { s with gie := true }

end Sys2Proof.Machine
end

