-- ==== Sys2Proof/WellFormed.lean ====
section
/-! DEFINITION. What is well formed: a configuration (rules R9, R10, R184's BAD_CONFIG), a command word
(R70, R74) and the input of `sendLine` (R83). An `Instr` needs no check of its own: its one operand is a
byte and all 256 values are legal (R71, R76). -/

namespace Sys2Proof

/-- `N` is a power of two (R10). -/
def Config.capacityPow2 (c : Config) : Bool := c.N != 0 && c.N &&& (c.N - 1) == 0

/-- `2 <= N` (R9). Errs (D22): toward unprovable, `N = 1` being refused. -/
def Config.capacityAtLeast2 (c : Config) : Bool := 2 ≤ c.N

/-- `N <= 256`, the most a byte index can address (R9, R54). -/
def Config.capacityByteIndexed (c : Config) : Bool := c.N ≤ 256

/-- `ERR_FULL` differs from `ERR_NONE` (R9, R78). -/
def Config.codesDiffer (c : Config) : Bool := c.errFull != c.errNone

/-- `RX_HW_DEPTH >= 1` (R9). -/
def Config.receiverHoldsAByte (c : Config) : Bool := 1 ≤ c.rxHwDepth

/-- The parameters of R9 with one legal value: the three widths, the sentinel and the newline. -/
def Config.fixedValues (c : Config) : Bool :=
  c.dataW == 8 && c.idxW == 8 && c.errW == 8 && c.emptySentinel == 0x00 && c.newline == 0x0A

/-- The configuration is one the spec gives a meaning to: none of the four causes of BAD_CONFIG (R184), and
every other parameter at a legal value of R9's table (log entry 19). `ERR_NONE` may be any code, as that
table has it; R78 lets a claim rely on 0 (log entry 15). -/
def Config.wf (c : Config) : Bool :=
  c.capacityPow2 && c.capacityAtLeast2 && c.capacityByteIndexed && c.codesDiffer &&
    c.receiverHoldsAByte && c.fixedValues

/-- The operation code `cmd[11:8]` (R70). -/
def Cmd.op (w : Cmd) : Nat := (w.extractLsb' 8 4).toNat

/-- The operand field `cmd[7:0]` (R71). -/
def Cmd.arg (w : Cmd) : Byte := w.extractLsb' 0 8

/-- The operation codes whose format is B, the ones that take an operand (R70). -/
def Cmd.takesOperand (w : Cmd) : Bool := w.op == 0x2 || w.op == 0xC

/-- A word that rule R74 does not reserve: a known operation code, and a zero operand field in format Z. -/
def Cmd.wf (w : Cmd) : Bool := w.op < 0xE && (w.takesOperand || w.arg == 0)

/-- The input of `sendLine` holds its terminator (R79, R83; N13: no meaning is given to one that does
not). -/
def lineWf (s : List Byte) : Bool := s.contains Config.terminator

end Sys2Proof
end

