-- ==== Sys2Proof/Decode.lean ====
section
/-! DEFINITION. Decoding a command word into an operation, total on every word and refusing the reserved
ones by name, and the encoder (rules R70 to R75). -/

namespace Sys2Proof

/-- Why a word names no operation: the two kinds of reserved word of R74. -/
inductive DecodeError where
  /-- R74(a): `op` is 0xE or 0xF. -/
  | reservedOp
  /-- R74(b): a Z-format operation with a non-zero operand field. -/
  | operandNotZero
  deriving DecidableEq, Repr

/-- What a word decodes to. -/
abbrev Decoded := Except DecodeError Instr

/-- Format Z (R70): the operand field must be 0x00. -/
def decodeZ (w : Cmd) (i : Instr) : Decoded :=
  if Cmd.arg w = 0 then .ok i else .error .operandNotZero

/-- Decoding (R72 to R75): `op` alone selects the row. -/
def decode (w : Cmd) : Decoded :=
  match Cmd.op w with
  | 0x0 => decodeZ w .reset
  | 0x1 => decodeZ w .initRxIrq
  | 0x2 => .ok (.rxArrive (Cmd.arg w))
  | 0x3 => decodeZ w .isrRxc
  | 0x4 => decodeZ w .gbCheck
  | 0x5 => decodeZ w .gbAdvance
  | 0x6 => decodeZ w .gbRead
  | 0x7 => decodeZ w .getError
  | 0x8 => decodeZ w .isrTxc
  | 0x9 => decodeZ w .initTxOnly
  | 0xA => decodeZ w .initRxPolled
  | 0xB => decodeZ w .initTxrxPolled
  | 0xC => .ok (.sendByte (Cmd.arg w))
  | 0xD => decodeZ w .txDrain
  | _ => .error .reservedOp

/-- `{op, arg}` as one command word (R70). -/
def command (op : BitVec 4) (arg : Byte) : Cmd := op ++ arg

/-- The word of an operation, from the table of R72. -/
def encode : Instr → Cmd
  | .reset => command 0x0 0
  | .initRxIrq => command 0x1 0
  | .rxArrive b => command 0x2 b
  | .isrRxc => command 0x3 0
  | .gbCheck => command 0x4 0
  | .gbAdvance => command 0x5 0
  | .gbRead => command 0x6 0
  | .getError => command 0x7 0
  | .isrTxc => command 0x8 0
  | .initTxOnly => command 0x9 0
  | .initRxPolled => command 0xA 0
  | .initTxrxPolled => command 0xB 0
  | .sendByte b => command 0xC b
  | .txDrain => command 0xD 0

/-- The command word numbered as spec/opcode_table.json numbers it: the low `nbits` bits of `w`. A number
of more than twelve significant bits is no command word (R70; DESIGN CHOICE, log entry 22). -/
def tableWord (nbits w : Nat) : Option Cmd :=
  if w % 2 ^ nbits < 2 ^ 12 then some (BitVec.ofNat 12 (w % 2 ^ nbits)) else none

/-- The operation the decoder reads from a table word, or none where it refuses. -/
def decodeTableWord (nbits w : Nat) : Option Instr :=
  match tableWord nbits w with
  | none => none
  | some c =>
    match decode c with
    | .ok i => some i
    | .error _ => none

end Sys2Proof
end

