-- ==== Sys2Proof/Machine/Operands.lean ====
section
/-! DEFINITION. What an operation's operand and the ring's indices stand for: the index successor (rule
R57), the derived predicates of the ring (R25), and the agent of an operation (R72). The one encoded
operand, `arg`, is used as is (R71) and is pulled out by the decoder. -/

namespace Sys2Proof.Machine

/-- `succ(i) = (i + 1) & MASK` (R57): the sum over the integers, then masked. -/
def indexSucc (c : Config) (i : Byte) : Byte := BitVec.ofNat 8 ((i.toNat + 1) &&& c.mask)

/-- The slot the producer would fill next, `candidateHead` (R103 step 2, R106). -/
def State.candidateHead (s : State) : Byte := indexSucc s.cfg s.head

/-- `empty` (R25). -/
def State.isEmpty (s : State) : Bool := s.head == s.tail

/-- `full` (R25): judged on the published `tail` (R107). -/
def State.isFull (s : State) : Bool := s.candidateHead == s.tail

/-- `count = (head - tail) mod N` (R25). -/
def State.count (s : State) : Nat := (s.head.toNat + s.cfg.N - s.tail.toNat) % s.cfg.N

/-- The index of the `k`-th slot after `tail`, `(tail + k) & MASK` (R25): undelivered byte `k` lies there,
the oldest at `k = 1`. -/
def State.slotAfterTail (s : State) (k : Nat) : Nat := (s.tail.toNat + k) &&& s.cfg.mask

/-- The agent that issues an operation (R14, R72). -/
def agentOf : Instr → Agent
  | .reset | .rxArrive _ | .txDrain => .env
  | .isrRxc => .producer
  | .isrTxc => .hook
  | .initRxIrq | .gbCheck | .gbAdvance | .gbRead | .getError
  | .initTxOnly | .initRxPolled | .initTxrxPolled | .sendByte _ => .consumer

end Sys2Proof.Machine
end

