-- ==== Sys2Proof/Machine/Registers.lean ====
section
/-! DEFINITION. The peripheral registers (rules R29 to R36): reads and writes on named fields with their
side effects, the modes of R38, and byte-level views of the registers through `BITPOS`. -/

namespace Sys2Proof.Machine

/-- What remains after a read of the data register (R31, R55): the read returned `rxData` and clears `rxc`.
While `rxc` is 0 `rx_data` is unspecified (R31, U1): a fresh free value (log entry 4). Errs (D19): the two
sides of the data register are separate storage, toward proving for a part with one shared cell. -/
def State.afterDataRead (s : State) : State :=
  { s with rxc := false, rxData := Config.freeByte s.draws, draws := s.draws + 1 }

/-- A write of the data register: sets `tx_data` and clears `udre` (R31, R55). -/
def State.writeData (s : State) (b : Byte) : State := { s with txData := b, udre := false }

/-- A write of baud-high and baud-low with the two halves of the divisor, in one step (R35, D18). -/
def State.writeBaud (s : State) : State :=
  { s with baudH := s.cfg.baudDiv.extractLsb' 8 4, baudL := s.cfg.baudDiv.extractLsb' 0 8 }

/-- A write of control-B (R33, R80): it selects the mode. -/
def State.writeControlB (s : State) (rxen txen rxcie : Bool) : State :=
  { s with rxen := rxen, txen := txen, rxcie := rxcie }

/-- A write of control-C, always 8 data bits, 1 stop bit, no parity (R34). -/
def State.writeControlC (s : State) : State := { s with frameFmt := .f8n1 }

/-- The operating mode (R38). -/
inductive Mode where
  | uninitialised | txOnly | rxOnlyPolled | rxTxPolled | rxInterruptDriven
  deriving DecidableEq, Repr

/-- The mode as the function of control-B that R38 gives, with no value for the combinations no rule
produces. -/
def State.mode? (s : State) : Option Mode :=
  match s.rxen, s.txen, s.rxcie with
  | false, false, false => some .uninitialised
  | false, true, false => some .txOnly
  | true, false, false => some .rxOnlyPolled
  | true, true, false => some .rxTxPolled
  | true, false, true => some .rxInterruptDriven
  | _, _, _ => none

/-- A register seen as a byte (R30, R36): `known` marks the bits that are named fields of the model, `value`
holds those bits; the bits outside `known` are not state of this model (R32) and are 0 in `value` only as
padding. -/
structure RegView where
  known : Byte
  value : Byte
  deriving DecidableEq, Repr

/-- A field of `width` bits with value `v`, its lowest bit at `pos`. -/
def RegView.field (pos width v : Nat) : RegView where
  known := BitVec.ofNat 8 ((2 ^ width - 1) <<< pos)
  value := BitVec.ofNat 8 ((v % 2 ^ width) <<< pos)

/-- Two fields of one register. -/
def RegView.join (a b : RegView) : RegView where
  known := a.known ||| b.known
  value := a.value ||| b.value

/-- The byte-level view of a register (R30 to R36). The data register shows its read side; `frame_fmt` is
shown only once an init has written it. The upper four bits of baud-high are known only once an init has
written them: R35 zero-extends what init writes, and before that the register is unspecified (R42; log
entry 23). No rule of the block reads these views. -/
def State.regView (s : State) : Reg → RegView
  | .baudHigh => { known := if s.inited then 0xFF else 0x0F, value := s.baudH.zeroExtend 8 }
  | .baudLow => { known := 0xFF, value := s.baudL }
  | .controlA =>
    (RegView.field s.cfg.bitPos.rxc 1 s.rxc.toNat).join (RegView.field s.cfg.bitPos.udre 1 s.udre.toNat)
  | .controlB =>
    ((RegView.field s.cfg.bitPos.rxen 1 s.rxen.toNat).join
      (RegView.field s.cfg.bitPos.txen 1 s.txen.toNat)).join
        (RegView.field s.cfg.bitPos.rxcie 1 s.rxcie.toNat)
  | .controlC =>
    match s.frameFmt with
    | .unset => { known := 0, value := 0 }
    | .f8n1 =>
      ((RegView.field s.cfg.bitPos.charSize 2 3).join (RegView.field s.cfg.bitPos.stopSelect 1 0)).join
        (RegView.field s.cfg.bitPos.parityMode 2 0)
  | .data => { known := 0xFF, value := s.rxData }

end Sys2Proof.Machine
end

