-- ==== Sys2Proof/Machine/Ops.lean ====
section
/-! DEFINITION. The named operations over memory and state: the ring storage in canonical form (rules R21,
R50), its slots (R13), taking the receive or transmit interrupt and returning from it (R168, R169), handing
a value to a caller (R13), and the startup values (R42). -/

namespace Sys2Proof.Machine

/-- Reading one byte of storage. -/
def Memory.read : Memory → Nat → Byte
  | [], _ => Memory.unlisted
  | c :: m, a => if c.1 = a then c.2 else Memory.read m a

/-- A cell, unless it holds what an unlisted address reads as. -/
def Memory.cell (a : Nat) (v : Byte) (m : Memory) : Memory :=
  if v = Memory.unlisted then m else (a, v) :: m

/-- Writing one byte of storage, keeping the canonical form. -/
def Memory.write : Memory → Nat → Byte → Memory
  | [], a, v => Memory.cell a v []
  | c :: m, a, v =>
    if a < c.1 then Memory.cell a v (c :: m)
    else if a = c.1 then Memory.cell a v m
    else c :: Memory.write m a v

/-- The canonical form above an address: addresses rise strictly from `lo`, and no cell holds what an
unlisted address reads as. -/
def Memory.wfFrom : Nat → Memory → Bool
  | _, [] => true
  | lo, c :: m => decide (lo ≤ c.1) && c.2 != Memory.unlisted && Memory.wfFrom (c.1 + 1) m

/-- The canonical form of the storage. -/
def Memory.wf (m : Memory) : Bool := Memory.wfFrom 0 m

/-- Every cell is a slot below `n`. -/
def Memory.below (m : Memory) (n : Nat) : Bool := m.all fun c => c.1 < n

/-- `buf[i]`, or nothing where `i` is no slot (R13, R21). -/
def State.slot? (s : State) (i : Nat) : Option Byte :=
  if i < s.cfg.N then some (s.buf.read i) else none

/-- `buf[i] <- v` (R13), for `i` a slot. -/
def State.setSlot (s : State) (i : Nat) (v : Byte) : State := { s with buf := s.buf.write i v }

/-- `buf[i] <- v`, or nothing where `i` is no slot (R13, R21). -/
def State.storeSlot (s : State) (i : Nat) (v : Byte) : Option State :=
  if i < s.cfg.N then some (s.setSlot i v) else none

/-- Publishing `head` (R103 step 4, R134); the stored byte is observed as accepted (R15). -/
def State.publishHead (s : State) (h b : Byte) : State :=
  { s with head := h, obs := { s.obs with accepted := s.obs.accepted ++ [b] } }

/-- Taking an interrupt (R168): the processor masks interrupts. Nothing is saved in the model (D29): the
handlers disturb neither `cphase` nor any main-context value. -/
def State.enterInterrupt (s : State) : State := { s with gie := false }

/-- Returning from an interrupt (R169): the mask is lifted; the main context resumes with every value as it
was. -/
def State.returnInterrupt (s : State) : State := { s with gie := true }

/-- `return v`: the operation completes and hands `v` to its caller (R13; log entry 8). -/
def State.handBack (s : State) (r : Ret) : State := { s with returned := s.returned ++ [r] }

/-- Moving the consumer inside its `getByte` call (R27). -/
def State.setPhase (s : State) (p : CPhase) : State := { s with cphase := p }

/-- `tail <- succ(tail)` (R117). -/
def State.advanceTail (s : State) : State := { s with tail := indexSucc s.cfg s.tail }

/-- A byte read by GB_READ is observed as delivered (R15, R118). -/
def State.deliver (s : State) (v : Byte) : State :=
  { s with obs := { s.obs with delivered := s.obs.delivered ++ [v] } }

/-- A SEND_BYTE call begins or goes on to busy-wait (R151). -/
def State.hold (s : State) (b : Byte) : State := { s with held := some b }

/-- No SEND_BYTE call busy-waits any more (R151). -/
def State.release (s : State) : State := { s with held := none }

/-- The transmitter latches the byte in the data register (R152). -/
def State.drain (s : State) : State :=
  { s with udre := true, obs := { s.obs with wire := s.obs.wire ++ [s.txData] } }

/-- The receiver hardware has latched `b` (R101, first branch). -/
def State.latch (s : State) (b : Byte) : State :=
  { s with
    rxData := b, rxc := true,
    obs := { s.obs with arrived := s.obs.arrived ++ [b], latched := s.obs.latched ++ [b] } }

/-- `b` is lost in the receiver hardware (R101, second branch). -/
def State.loseByte (s : State) (b : Byte) : State :=
  { s with hwOverrun := true, obs := { s.obs with arrived := s.obs.arrived ++ [b] } }

/-- What the four init routines share (R90): divisor, control-B, control-C. -/
def State.configure (s : State) (rxen txen rxcie : Bool) : State :=
  ((s.writeBaud).writeControlB rxen txen rxcie).writeControlC

/-- The record that an init routine has run (R39). -/
def State.markInited (s : State) : State := { s with inited := true }

/-- Startup (R42, R185): every element to its reset value, the four unspecified registers to free values
(log entry 3), the observations to empty. A call that busy-waits dies with the process (log entry 7). The
configuration, the schedule and the draw counter are not hardware and go on. -/
def State.powerOn (s : State) : State :=
  { s with
    buf := [], head := 0, tail := 0, lastError := s.cfg.errNone,
    rxc := false, udre := true, rxen := false, txen := false, rxcie := false, gie := false,
    frameFmt := .unset,
    rxData := Config.freeByte s.draws,
    txData := Config.freeByte (s.draws + 1),
    baudH := (Config.freeByte (s.draws + 2)).extractLsb' 0 4,
    baudL := Config.freeByte (s.draws + 3),
    draws := s.draws + 4,
    inited := false, cphase := .idle, hwOverrun := false,
    obs := {}, held := none, returned := [] }

end Sys2Proof.Machine
end

