-- ==== Sys2Proof/Machine/Boot.lean ====
section
/-! DEFINITION. RESET (rule R185) and the four initialisation operations (R90 to R95). -/

namespace Sys2Proof.Machine

/-- RESET (R185): always enabled, also inside a `getByte`, which it abandons (U23). -/
def execReset (s : State) : Host.Outcome State Fault Refusal := .next s.powerOn

/-- The common contract of the init routines (R90, R184): refused a second time, refused inside a `getByte`
(log entry 20), and otherwise `body`, then the record `inited`. -/
def runInit (s : State) (body : State → State) : Host.Outcome State Fault Refusal :=
  if s.inited then .refused .initTwice
  else if s.cphase ≠ .idle then .refused .consumerBusy
  else .next (body s).markInited

/-- INIT_RX_IRQ (R91, R95): receiver and its interrupt on, and last the global unmask. -/
def execInitRxIrq (s : State) : Host.Outcome State Fault Refusal :=
  runInit s fun s => (s.configure true false true).unmask

/-- INIT_TX_ONLY (R92): transmitter only; `gie` unchanged. -/
def execInitTxOnly (s : State) : Host.Outcome State Fault Refusal :=
  runInit s fun s => s.configure false true false

/-- INIT_RX_POLLED (R93): receiver only; `gie` unchanged. -/
def execInitRxPolled (s : State) : Host.Outcome State Fault Refusal :=
  runInit s fun s => s.configure true false false

/-- INIT_TXRX_POLLED (R94): transmitter and receiver; `gie` unchanged. -/
def execInitTxrxPolled (s : State) : Host.Outcome State Fault Refusal :=
  runInit s fun s => s.configure true true false

end Sys2Proof.Machine
end

