-- ==== Sys2Proof/Machine/Consumer.lean ====
section
/-! DEFINITION. The consumer side: the three steps of `getByte` (rules R116 to R118) and GET_ERROR
(R121). -/

namespace Sys2Proof.Machine

/-- GB_CHECK (R116): the masked emptiness test; on empty the sentinel is handed back and nothing else
changes, otherwise the call goes on with GB_ADVANCE. Errs (D10): exact in the interrupt-driven mode; in
other modes toward proving only if the original forces interrupts on at the end of the window (log entry 25).
Errs (D14): exact on a single in-order core; toward proving if the compiler reorders or caches the shared
variables in registers (log entry 13). -/
def execGbCheck (s : State) : Host.Outcome State Fault Refusal :=
  if !s.inited then .refused .notInitialised
  else if s.cphase ≠ .idle then .refused .consumerBusy
  else
    let inside := s.enterWindow
    let isEmpty := inside.isEmpty
    let after := inside.leaveWindow s.gie
    if isEmpty then .next (after.handBack (.getByte s.cfg.emptySentinel))
    else .next (after.setPhase .nonempty)

/-- GB_ADVANCE (R117): `tail <- succ(tail)`, outside the masked window. -/
def execGbAdvance (s : State) : Host.Outcome State Fault Refusal :=
  if s.cphase = .nonempty then .next (s.advanceTail.setPhase .advanced)
  else .refused .outOfSequence

/-- GB_READ (R118): reads `buf[tail]` with the advanced `tail`, hands the byte back and ends the call; the
slot keeps the byte. -/
def execGbRead (s : State) : Host.Outcome State Fault Refusal :=
  if s.cphase = .advanced then
    match s.slot? s.tail.toNat with
    | some v => .next (((s.setPhase .idle).deliver v).handBack (.getByte v))
    | none => .fault .noSuchSlot
  else .refused .outOfSequence

/-- GET_ERROR (R121): one atomic read of the flag, which it does not clear; readable before init. -/
def execGetError (s : State) : Host.Outcome State Fault Refusal :=
  if s.cphase = .idle then .next (s.handBack (.getError s.lastError))
  else .refused .consumerBusy

end Sys2Proof.Machine
end

