-- ==== Sys2Proof/Machine/Producer.lean ====
section
/-! DEFINITION. The producer side: RX_ARRIVE (rule R101), the receive interrupt handler ISR_RXC (R103) and
the empty transmit-complete hook ISR_TXC (R165). -/

namespace Sys2Proof.Machine

/-- RX_ARRIVE(b) (R101): with the receiver off the byte is not seen and nothing happens (R184: no step, not
a refusal; log entry 6). Errs (D12): toward unprovable against a deeper receiver (the model loses bytes
the part would keep); toward proving against a part that overwrites `rx_data` with the newer byte or corrupts
it; the premise that `hw_overrun` stays 0 removes both; so whatever `RX_HW_DEPTH` is. Errs (D31): toward proving only if a part set `rxc`
with the receiver off (log entry 11). -/
def execRxArrive (b : Byte) (s : State) : Host.Outcome State Fault Refusal :=
  if s.rxen then
    if s.rxc then .next (s.loseByte b) else .next (s.latch b)
  else .next s

/-- Steps 2 to 4 of the handler (R103): the full test on the published `tail` (R107); full, the byte is
dropped and the flag set (R105); not full, the byte is stored first and `head` published second (R106,
R134). -/
def State.push (s : State) (b : Byte) : Option State :=
  if s.isFull then some (s.raiseOverflow b)
  else (s.storeSlot s.candidateHead.toNat b).map fun s' => s'.publishHead s.candidateHead b

/-- ISR_RXC (R102, R103): from interrupt entry to return, one atomic step. The data register is read before
the full test and in both outcomes (R104). Issued while it is not enabled it is refused (R184, V16, V17).
Errs (D9): exact under the one-byte atomicity of R54; toward proving if an index access could tear (excluded
by `N <= 256`) or if another agent wrote these variables (excluded by D30). Errs (D30): toward proving if some
other handler touches `head`, `tail`, `buf`, `last_error`, the UART registers or calls `getByte` (log
entries 10, 12). -/
def execIsrRxc (s : State) : Host.Outcome State Fault Refusal :=
  if s.rxcTaken then
    match s.enterInterrupt.afterDataRead.push s.rxData with
    | some s' => .next s'.returnInterrupt
    | none => .fault .noSuchSlot
  else .refused .wrongContext

/-- ISR_TXC (R165): the empty hook, interrupt entry and return. With `gie` 0 no interrupt is taken and
nothing happens either: in any state the same state (log entry 17). -/
def execIsrTxc (s : State) : Host.Outcome State Fault Refusal :=
  if s.gie then .next s.enterInterrupt.returnInterrupt else .next s

end Sys2Proof.Machine
end

