-- ==== Sys2Proof/Machine/Transmit.lean ====
section
/-! DEFINITION. The transmit path (rules R150 to R152): SEND_BYTE with its busy-wait, and TX_DRAIN. -/

namespace Sys2Proof.Machine

/-- SEND_BYTE(b) (R151): refused before init, with the transmitter off, and inside a `getByte`; while
`udre` is 0 the call busy-waits (`held`; the fetch lets the consumer do nothing else, log entry 7);
otherwise the data register is written and the call ends. -/
def execSendByte (b : Byte) (s : State) : Host.Outcome State Fault Refusal :=
  if !s.inited then .refused .notInitialised
  else if !s.txen then .refused .txDisabled
  else if s.cphase ≠ .idle then .refused .consumerBusy
  else if !s.udre then .next (s.hold b)
  else .next (s.writeData b).release

/-- TX_DRAIN (R152): the transmitter latches the waiting byte; with nothing to latch there is no step and
nothing happens (R184; log entry 6). Errs (D32): toward unprovable, the drain's time being open. -/
def execTxDrain (s : State) : Host.Outcome State Fault Refusal :=
  if s.txPending then .next s.drain else .next s

end Sys2Proof.Machine
end

