-- ==== Sys2Proof/Machine/Dispatch.lean ====
section
/-! DEFINITION. The dispatch of an operation to its meaning (rule R72). -/

namespace Sys2Proof.Machine

def exec (i : Instr) (s : State) : Host.Outcome State Fault Refusal :=
  match i with
  | .reset => Sys2Proof.Machine.execReset s
  | .initRxIrq => Sys2Proof.Machine.execInitRxIrq s
  | .rxArrive b => Sys2Proof.Machine.execRxArrive b s
  | .isrRxc => Sys2Proof.Machine.execIsrRxc s
  | .gbCheck => Sys2Proof.Machine.execGbCheck s
  | .gbAdvance => Sys2Proof.Machine.execGbAdvance s
  | .gbRead => Sys2Proof.Machine.execGbRead s
  | .getError => Sys2Proof.Machine.execGetError s
  | .isrTxc => Sys2Proof.Machine.execIsrTxc s
  | .initTxOnly => Sys2Proof.Machine.execInitTxOnly s
  | .initRxPolled => Sys2Proof.Machine.execInitRxPolled s
  | .initTxrxPolled => Sys2Proof.Machine.execInitTxrxPolled s
  | .sendByte b => Sys2Proof.Machine.execSendByte b s
  | .txDrain => Sys2Proof.Machine.execTxDrain s

end Sys2Proof.Machine
end

