-- ==== Sys2Proof/Machine/Fetch.lean ====
section
/-! DEFINITION. Which operation the next step runs: the head of the schedule, but that a consumer whose
SEND_BYTE busy-waits takes no other step (rules R59, R151, R167; log entries 5, 7). -/

namespace Sys2Proof.Machine

/-- What the fetch finds. -/
inductive Fetched where
  /-- the schedule offers no step: nothing happens -/
  | idle
  /-- no meaning (R184) -/
  | stop (r : Refusal)
  /-- run `i` in `s`, from whose schedule the word is taken -/
  | run (i : Instr) (s : State)

/-- The operation of a command word, if it names one of an agent other than the consumer. -/
def otherAgents (w : Cmd) : Option Instr :=
  match decode w with
  | .ok i => if agentOf i = .consumer then none else some i
  | .error _ => none

/-- The first word of another agent in a schedule, and the schedule without it. -/
def takeOther : List Cmd → Option (Instr × List Cmd)
  | [] => none
  | w :: ws =>
    match otherAgents w with
    | some i => some (i, ws)
    | none => (takeOther ws).map fun p => (p.1, w :: p.2)

/-- The head of a schedule, if it is a word of another agent, and the schedule without it. -/
def headOther : List Cmd → Option (Instr × List Cmd)
  | [] => none
  | w :: ws => (otherAgents w).map fun i => (i, ws)

/-- No call busy-waits: the next word is taken, decoded and run; a reserved word is refused (R74). -/
def State.fetchWord (s : State) : Fetched :=
  match s.sched with
  | [] => .idle
  | w :: ws =>
    match decode w with
    | .ok i => .run i { s with sched := ws }
    | .error _ => .stop .reservedEncoding

/-- The consumer's SEND_BYTE(b) busy-waits: other agents go on in schedule order (past the consumer's words
while `udre` is 0), and the consumer's own turn is the call itself, to which its later words wait (R151). -/
def State.fetchHeld (s : State) (b : Byte) : Fetched :=
  match if s.udre then headOther s.sched else takeOther s.sched with
  | some (i, ws) => .run i { s with sched := ws }
  | none => .run (.sendByte b) s

/-- The next operation. A machine of an ill-formed configuration is refused before anything else (R10,
R184; log entry 19). -/
def State.fetch (s : State) : Fetched :=
  if s.cfg.wf then
    match s.held with
    | none => s.fetchWord
    | some b => s.fetchHeld b
  else .stop .badConfig

/-- The state with a command word placed as the next to be fetched. A word of the consumer, or a reserved
one, also ends a call that busy-waits, or it would wait behind that call. -/
def State.placeWord (s : State) (w : Cmd) : State :=
  { s with
    sched := w :: s.sched
    held := if (otherAgents w).isSome then s.held else none }

/-- The word of a number that is no command word (R70): a reserved one, so that a step refuses it (log
entry 22). -/
def reservedWord : Cmd := 0xFFF

end Sys2Proof.Machine
end

