-- ==== Sys2Proof/Machine/Step.lean ====
section
/-! DEFINITION. One step of the machine (rule R59): the operation the fetch finds, run by `exec`. -/

namespace Sys2Proof.Machine

/-- One step. -/
def step (s : State) : Host.Outcome State Fault Refusal :=
  match s.fetch with
  | .idle => .next s
  | .stop r => .refused r
  | .run i s' => exec i s'

/-- The state in which the next step runs the operation of table word `w` (log entries 5, 22). -/
def State.withFetchWord (s : State) (nbits w : Nat) : State :=
  s.placeWord ((tableWord nbits w).getD reservedWord)

end Sys2Proof.Machine
end

