-- ==== Sys2Proof/Machine/Pseudo.lean ====
section
/-! DEFINITION. The pseudo-operations GET_BYTE and SEND_LINE (rules R82, R83) as the sequences they expand
to, and running a sequence of operations with nothing interleaved. -/

namespace Sys2Proof.Machine

/-- Running operations one after another, stopping at the first fault or refusal. -/
def runAll : List Instr → State → Host.Outcome State Fault Refusal
  | [], s => .next s
  | i :: is, s =>
    match exec i s with
    | .next s' => runAll is s'
    | .fault r => .fault r
    | .refused r => .refused r

/-- GET_BYTE (R82): GB_CHECK, and only if it found the buffer not empty, GB_ADVANCE then GB_READ. -/
def getByteSteps (s : State) : List Instr :=
  if s.isEmpty then [.gbCheck] else [.gbCheck, .gbAdvance, .gbRead]

/-- One `getByte` call with no other agent's step in between. -/
def callGetByte (s : State) : Host.Outcome State Fault Refusal := runAll (getByteSteps s) s

/-- The bytes `sendLine` sends (R79, R83): every byte before the first 0x00, in order, then the newline. -/
def linePayload (c : Config) (s : List Byte) : List Byte :=
  s.takeWhile (fun b => b != Config.terminator) ++ [c.newline]

/-- SEND_LINE (R83): no meaning for an input without its terminator (N13). -/
def sendLineSteps (c : Config) (s : List Byte) : Option (List Instr) :=
  if lineWf s then some ((linePayload c s).map Instr.sendByte) else none

end Sys2Proof.Machine
end

