-- ==== Sys2Proof/Safety.lean ====
section
/-! DEFINITION. What counts as a safe run, in the terms the claims use: the bytes a ring holds (rules R25,
R138), the invariants of the ring, of the interface and of the observations (R26, R38, R138, R140), a
sequential bounded FIFO to compare with (R141), the premises of R208, and weak fairness (R206). -/

namespace Sys2Proof.Machine

/-- The state after reset (R42) of a machine of configuration `c`, under a schedule. -/
def State.resetIn (c : Config) (ws : List Cmd) : State :=
  { State.reset with cfg := c, lastError := c.errNone, sched := ws }

/-- `Q` (R138): the undelivered bytes, oldest first (R25). -/
def State.queue (s : State) : List Byte :=
  (List.range s.count).map fun k => s.buf.read (s.slotAfterTail (k + 1))

/-- `inflight` (R138): the byte a `getByte` has taken and not yet read. -/
def State.inflight (s : State) : List Byte :=
  match s.cphase with
  | .advanced => [s.buf.read s.tail.toNat]
  | .idle | .nonempty => []

/-- The byte the receiver hardware holds (R32). -/
def State.pending (s : State) : List Byte :=
  match s.rxc with
  | true => [s.rxData]
  | false => []

/-- A well-formed configuration and both indices below `N` (R26). -/
structure State.InRange (s : State) : Prop where
  cfgWf : s.cfg.wf = true
  headIn : s.head.toNat < s.cfg.N
  tailIn : s.tail.toNat < s.cfg.N

/-- The storage is in canonical form and every cell is a slot (R21). -/
structure State.StorageOk (s : State) : Prop where
  canonical : s.buf.wf = true
  inRing : s.buf.below s.cfg.N = true

/-- The ring invariant R138 (its clause (b) is `count_lt` in Laws/Ring.lean: it follows from (a)). -/
structure State.RingInv (s : State) : Prop where
  /-- (a) -/
  inRange : s.InRange
  /-- (c) -/
  conserved : s.obs.accepted = s.obs.delivered ++ s.inflight ++ s.queue
  /-- (d) -/
  overflowSeen : s.lastError = s.cfg.errFull ↔ s.obs.dropped ≠ []
  /-- (e) -/
  decided : s.cphase = .nonempty → 1 ≤ s.count
  /-- R24: no other code is ever stored -/
  errCode : s.lastError = s.cfg.errNone ∨ s.lastError = s.cfg.errFull

/-- The interface invariant: the modes of R38 with `gie` between steps, and what R32 to R35 and R91(a) say
of the registers in each. -/
structure State.PortInv (s : State) : Prop where
  /-- one of the five rows of R38's table -/
  legalMode : s.mode?.isSome = true
  /-- between steps interrupts are unmasked exactly in the interrupt-driven mode (R38) -/
  unmasked : s.gie = s.rxcie
  /-- before init nothing is enabled and no `getByte` runs (R39, R90) -/
  beforeInit : s.inited = false → s.mode? = some .uninitialised ∧ s.cphase = .idle
  /-- after init a mode is selected -/
  afterInit : s.inited = true → s.mode? ≠ some .uninitialised
  /-- a byte is received only with the receiver on (R101) -/
  receiverOn : s.rxc = true → s.rxen = true
  /-- the data register holds a byte to send only with the transmitter on (R151) -/
  transmitterOn : s.udre = false → s.txen = true
  /-- the frame format is fixed by init (R34) -/
  frame : s.frameFmt = if s.inited then .f8n1 else .unset
  /-- the divisor is fixed by init (R35) -/
  divisor : s.inited = true → s.baudH ++ s.baudL = s.cfg.baudDiv

/-- Of a SEND_BYTE that busy-waits (R151): it was allowed to start. -/
def State.HeldInv (s : State) : Prop :=
  s.held.isSome = true → s.inited = true ∧ s.txen = true ∧ s.cphase = .idle

/-- The observation invariant (R15, R101, R104, R140): what the receiver kept is what was stored, what was
dropped and what waits; both parts in order; and the ghost `hw_overrun` tells whether the receiver lost
anything. -/
structure State.TraceInv (s : State) : Prop where
  accounted : s.obs.latched.Perm (s.obs.accepted ++ s.obs.dropped ++ s.pending)
  acceptedInOrder : (s.obs.accepted ++ s.pending).Sublist s.obs.latched
  droppedInOrder : (s.obs.dropped ++ s.pending).Sublist s.obs.latched
  latchedInOrder : s.obs.latched.Sublist s.obs.arrived
  lossSeen : s.hwOverrun = true ↔ s.obs.latched.length < s.obs.arrived.length

/-- All of them. -/
structure State.Inv (s : State) : Prop where
  storage : s.StorageOk
  ring : s.RingInv
  port : s.PortInv
  held : s.HeldInv
  trace : s.TraceInv

/-- A sequential bounded FIFO with a sticky overflow flag (R141). -/
structure Fifo where
  items : List Byte
  overflow : Bool
  deriving DecidableEq, Repr

/-- A push that fails when `cap` items are held, dropping its argument and setting the flag. -/
def Fifo.push (f : Fifo) (cap : Nat) (b : Byte) : Fifo :=
  if f.items.length < cap then { f with items := f.items ++ [b] } else { f with overflow := true }

/-- A pop of the oldest item. -/
def Fifo.pop (f : Fifo) : Fifo := { f with items := f.items.tail }

/-- The FIFO a state implements: its undelivered bytes and its flag. -/
def State.fifo (s : State) : Fifo where
  items := s.queue
  overflow := s.lastError == s.cfg.errFull

/-- What each operation does to that FIFO: ISR_RXC pushes, GB_ADVANCE pops, RESET empties, and nothing else
touches it (R141). -/
def fifoStep (i : Instr) (s : State) : Fifo :=
  match i with
  | .isrRxc => s.fifo.push s.cfg.usable s.rxData
  | .gbAdvance => s.fifo.pop
  | .reset => { items := [], overflow := false }
  | .initRxIrq | .rxArrive _ | .gbCheck | .gbRead | .getError | .isrTxc
  | .initTxOnly | .initRxPolled | .initTxrxPolled | .sendByte _ | .txDrain => s.fifo

/-- The interrupt-driven receiver, ready for the next byte: what INIT_RX_IRQ leaves (R91, R95). -/
structure State.Armed (s : State) : Prop where
  rxen : s.rxen = true
  rxcie : s.rxcie = true
  gie : s.gie = true
  ready : s.rxc = false

/-- A configured machine with the receiver off and an empty ring (R92, corner case). -/
structure State.ReceiverOff (s : State) : Prop where
  configured : s.inited = true
  off : s.rxen = false
  nothingWaits : s.rxc = false
  empty : s.head = s.tail
  noCall : s.cphase = .idle

/-- A configured machine whose receive interrupt is not armed (R93, R94). -/
structure State.HandlerOff (s : State) : Prop where
  configured : s.inited = true
  off : s.rxcie = false

/-- What R93's corner case says of such a machine from then on, short of a RESET: the handler is never
enabled, the ring is never written, and a byte that waits is never read, so every later arrival is a hardware
overrun. -/
def HandlerStaysOff : Prop :=
  ∀ s : State, s.HandlerOff →
    exec .isrRxc s = .refused .wrongContext ∧
    (∀ i t, i ≠ .reset → exec i s = .next t →
      t.HandlerOff ∧ t.rxen = s.rxen ∧ t.head = s.head ∧ t.buf = s.buf ∧ (s.rxc = true → t.rxc = true)) ∧
    ∀ b, s.rxen = true → ∃ t, exec (.rxArrive b) s = .next t ∧ t.rxc = true ∧
      (s.rxc = true → t.hwOverrun = true ∧ t.rxData = s.rxData)

/-- A quiescent state (R15, R207): nothing waits, no call is in progress, and the schedule offers no further
byte. -/
structure State.Quiescent (s : State) : Prop where
  noByteWaits : s.rxc = false
  noCall : s.cphase = .idle
  transmitIdle : s.udre = true ∨ s.txen = false
  noMoreBytes : ∀ w ∈ s.sched, ∀ b, decode w ≠ .ok (.rxArrive b)

/-- Each byte arrives and its handler runs, with no consumption in between (R142). -/
def produceSteps (bs : List Byte) : List Instr := bs.flatMap fun b => [.rxArrive b, .isrRxc]

/-- `k` calls of `getByte` on a buffer that holds at least `k` bytes (R82, R142). -/
def consumeSteps (k : Nat) : List Instr := (List.replicate k [.gbCheck, .gbAdvance, .gbRead]).flatten

/-- Each byte arrives, is stored and is fetched before the next (E4). -/
def keepUpSteps (bs : List Byte) : List Instr :=
  bs.flatMap fun b => [.rxArrive b, .isrRxc, .gbCheck, .gbAdvance, .gbRead]

/-- Each byte is sent and then latched by the transmitter (R153, P4). -/
def sendSteps (bs : List Byte) : List Instr := bs.flatMap fun b => [.sendByte b, .txDrain]

/-- An endless run: the state before each step, and the command words offered just before it. -/
structure Run where
  state : Nat → State
  offer : Nat → List Cmd

/-- The state in which step `n` is taken. -/
def Run.offered (r : Run) (n : Nat) : State :=
  { r.state n with sched := (r.state n).sched ++ r.offer n }

/-- Each state is the step of the one before, with the words offered there. -/
def Run.valid (r : Run) : Prop := ∀ n, step (r.offered n) = .next (r.state (n + 1))

/-- Step `n` runs operation `i`. -/
def Run.takes (r : Run) (i : Instr) (n : Nat) : Prop := ∃ s, (r.offered n).fetch = .run i s

/-- Weak fairness of an operation (R167): if it stays enabled from some step on, it is taken later. -/
def Run.weaklyFair (r : Run) (enabled : State → Bool) (i : Instr) : Prop :=
  ∀ n, (∀ m, n ≤ m → enabled (r.state m) = true) → ∃ m, n ≤ m ∧ r.takes i m

/-- The fairness R206 assumes of the handler. It assumes none of RX_ARRIVE or of the consumer. -/
def Run.fairIsrRxc (r : Run) : Prop := r.weaklyFair State.rxcTaken .isrRxc

/-- The fairness R206 assumes of a transmitter that is not stalled. -/
def Run.fairTxDrain (r : Run) : Prop := r.weaklyFair State.txPending .txDrain

/-- An outcome with its next state changed by `f`. -/
def mapNext (f : State → State) : Host.Outcome State Fault Refusal → Host.Outcome State Fault Refusal
  | .next s => .next (f s)
  | .fault r => .fault r
  | .refused r => .refused r

/-- A state with everything blanked that no rule of the block reads: the observations, the ghost
`hw_overrun`, the values handed back, the frame format and the divisor registers (R15, R34, R35, R40). -/
def State.blankUnread (s : State) : State :=
  { s with
    obs := {}, hwOverrun := false, returned := [], frameFmt := .unset, baudH := 0, baudL := 0 }

end Sys2Proof.Machine
end

