-- ==== Sys2Proof/Certificates/Slice0/Obligations.lean ====
section
/-! DEFINITION. The statements for the provers, each citing the rules of spec/ it comes from. In the
statements of an operation's effect the index arithmetic of R57 is written out, not called. -/

open Sys2Proof Sys2Proof.Machine

/-! ### Encoding -/

/-- R70 to R72: every operation, with every operand, is read back from its own command word. -/
def Obligations.DecodeOfEncodeIsTheInstruction : Prop :=
  ∀ i : Instr, decode (encode i) = .ok i

/-- R73: a word that decodes is exactly the word of the operation it decodes to, so no bit of it is ignored
and no two words name one operation. -/
def Obligations.EncodeOfDecodeIsTheWord : Prop :=
  ∀ (w : Cmd) (i : Instr), decode w = .ok i → encode i = w

/-- R74: exactly the words with `op` 0xE or 0xF, and those of a Z-format operation with a non-zero operand,
are reserved, and a reserved word offered to the machine is refused. -/
def Obligations.ReservedWordsAreExactlyRefused : Prop :=
  (∀ w : Cmd, (∃ e, decode w = .error e) ↔
    (w.toNat / 256 = 0xE ∨ w.toNat / 256 = 0xF) ∨
      (w.toNat / 256 ≠ 0x2 ∧ w.toNat / 256 ≠ 0xC ∧ w.toNat % 256 ≠ 0)) ∧
  ∀ (s : State) (w : Cmd) (ws : List Cmd) (e : DecodeError), s.cfg.wf = true → s.held = none →
    s.sched = w :: ws → decode w = .error e → step s = .refused .reservedEncoding

/-- Words written out from the table of R72 decode to the operation they stand for (V70 to V76). -/
def Obligations.SampleWordsDecode : Prop :=
  decode 0x000#12 = .ok .reset ∧ decode 0x100#12 = .ok .initRxIrq ∧
  decode 0x2FF#12 = .ok (.rxArrive 0xFF) ∧ decode 0x200#12 = .ok (.rxArrive 0x00) ∧
  decode 0x300#12 = .ok .isrRxc ∧ decode 0x400#12 = .ok .gbCheck ∧
  decode 0xC0A#12 = .ok (.sendByte 0x0A) ∧ decode 0xD00#12 = .ok .txDrain ∧
  decode 0x401#12 = .error .operandNotZero ∧ decode 0xE00#12 = .error .reservedOp ∧
  decode 0xF7A#12 = .error .reservedOp

/-! ### The step -/

/-- R59: the step runs the operation of the next command word, in the state from whose schedule that word is
taken, if no call waits or (R151 corner case (a)) the word is another agent's. -/
def Obligations.StepRunsTheDecodedInstruction : Prop :=
  ∀ (s : State) (w : Cmd) (ws : List Cmd) (i : Instr),
    s.cfg.wf = true → (s.held = none ∨ agentOf i ≠ .consumer) → s.sched = w :: ws → decode w = .ok i →
      step s = exec i { s with sched := ws }

/-- R10, R184 (BAD_CONFIG): a machine whose configuration is ill-formed is refused at every step. The last two
causes are R9's legal values, not in R184's table; refusing for them is the model's choice (log entry 19). -/
def Obligations.IllFormedConfigurationIsRefused : Prop :=
  ∀ s : State,
    ((∀ k, s.cfg.N ≠ 2 ^ k) ∨ s.cfg.N < 2 ∨ 256 < s.cfg.N ∨ s.cfg.errFull = s.cfg.errNone ∨
      s.cfg.rxHwDepth = 0 ∨ s.cfg.fixedValues = false) →
      step s = .refused .badConfig

/-- The model's own choices (log entries 5, 6): where the schedule offers nothing, nothing happens; and an
ENV step that is not enabled, of which R184 says that it does not exist, changes nothing. -/
def Obligations.WhereThereIsNoStepNothingChanges : Prop :=
  ∀ s : State,
    (s.cfg.wf = true → s.held = none → s.sched = [] → step s = .next s) ∧
    (∀ b, s.rxen = false → exec (.rxArrive b) s = .next s) ∧
    (¬(s.txen = true ∧ s.udre = false) → exec .txDrain s = .next s)

/-- R9 ("configured once") and R59: no step changes the configuration, and a step takes at most one command
word from the schedule, leaving the others in order. -/
def Obligations.StepKeepsConfigurationAndTakesOneWord : Prop :=
  ∀ s t : State, step s = .next t →
    t.cfg = s.cfg ∧
      (t.sched = s.sched ∨ ∃ pre w post, s.sched = pre ++ w :: post ∧ t.sched = pre ++ post)

/-! ### RESET and the initialisation -/

/-- R42, R186: the state after reset, every element the spec gives a value. -/
def Obligations.ResetStateHasTheStatedValues : Prop :=
  (∀ i, i < State.reset.cfg.N → State.reset.slot? i = some 0x00) ∧
  State.reset.head = 0 ∧ State.reset.tail = 0 ∧ State.reset.lastError = State.reset.cfg.errNone ∧
  State.reset.lastError = 0 ∧
  State.reset.rxc = false ∧ State.reset.udre = true ∧
  State.reset.rxen = false ∧ State.reset.txen = false ∧ State.reset.rxcie = false ∧
  State.reset.frameFmt = .unset ∧ State.reset.gie = false ∧ State.reset.inited = false ∧
  State.reset.cphase = .idle ∧ State.reset.hwOverrun = false

/-- R185: RESET is always enabled and leaves exactly R42's values, `rx_data`, `tx_data`, `baud_h` and
`baud_l` unspecified; afterwards GB_CHECK is refused and GET_ERROR returns `ERR_NONE`, which is 0 where the
configuration takes R9's value of it. Of the model's own fields
`held`, `returned` and `draws` nothing is said. -/
def Obligations.ResetOperationEffect : Prop :=
  encode .reset = 0x000#12 ∧ agentOf .reset = .env ∧
  (∀ s : State, ∃ rx tx bh bl hd rs n,
    exec .reset s = .next
      { s with
        buf := [], head := 0, tail := 0, lastError := s.cfg.errNone,
        rxc := false, udre := true, rxen := false, txen := false, rxcie := false, gie := false,
        frameFmt := .unset, rxData := rx, txData := tx, baudH := bh, baudL := bl,
        inited := false, cphase := .idle, hwOverrun := false,
        obs := { arrived := [], latched := [], accepted := [], dropped := [], delivered := [], wire := [] },
        held := hd, returned := rs, draws := n }) ∧
  ∀ s t : State, exec .reset s = .next t →
    (∀ i, i < s.cfg.N → t.slot? i = some 0x00) ∧
    exec .gbCheck t = .refused .notInitialised ∧
    exec .getError t = .next { t with returned := t.returned ++ [.getError s.cfg.errNone] } ∧
    (s.cfg.errNone = 0 → exec .getError t = .next { t with returned := t.returned ++ [.getError 0] })

/-- R91: INIT_RX_IRQ; and its corner case (a): before init no byte can have arrived, so nothing is pending at
the unmask. -/
def Obligations.InitRxIrqEffect : Prop :=
  encode .initRxIrq = 0x100#12 ∧ agentOf .initRxIrq = .consumer ∧
  ∀ s : State,
    (s.inited = false → s.cphase = .idle →
      exec .initRxIrq s = .next
        { s with
          baudH := s.cfg.baudDiv.extractLsb' 8 4, baudL := s.cfg.baudDiv.extractLsb' 0 8,
          rxen := true, txen := false, rxcie := true, frameFmt := .f8n1, gie := true, inited := true }) ∧
    (s.inited = true → exec .initRxIrq s = .refused .initTwice) ∧
    (s.PortInv → s.inited = false → s.irqRxc = false ∧ s.rxc = false)

/-- R92: INIT_TX_ONLY, and its corner case: with the receiver off no byte is seen, the ring stays as it is for
ever, whatever operation runs short of a RESET, and every `getByte` returns 0x00. -/
def Obligations.InitTxOnlyEffect : Prop :=
  encode .initTxOnly = 0x900#12 ∧ agentOf .initTxOnly = .consumer ∧
  ∀ s : State,
    (s.inited = false → s.cphase = .idle →
      exec .initTxOnly s = .next
        { s with
          baudH := s.cfg.baudDiv.extractLsb' 8 4, baudL := s.cfg.baudDiv.extractLsb' 0 8,
          rxen := false, txen := true, rxcie := false, frameFmt := .f8n1, inited := true }) ∧
    (s.inited = true → exec .initTxOnly s = .refused .initTwice) ∧
    (∀ t, s.rxc = false → s.head = s.tail → exec .initTxOnly s = .next t → t.ReceiverOff) ∧
    ∀ i t, s.ReceiverOff → i ≠ .reset → exec i s = .next t →
      t.ReceiverOff ∧ t.buf = s.buf ∧ t.head = s.head ∧
        (i = .gbCheck → t.returned = s.returned ++ [.getByte s.cfg.emptySentinel]) ∧
        (i = .gbCheck → s.cfg.wf = true → t.returned = s.returned ++ [.getByte 0x00])

/-- R93: INIT_RX_POLLED, and its corner case: with the receive interrupt off the handler is never enabled, the
ring is never written, `rxc` stays 1 after the first arrival and every later arrival is a hardware overrun. -/
def Obligations.InitRxPolledEffect : Prop :=
  encode .initRxPolled = 0xA00#12 ∧ agentOf .initRxPolled = .consumer ∧
  (∀ s : State,
    (s.inited = false → s.cphase = .idle →
      exec .initRxPolled s = .next
        { s with
          baudH := s.cfg.baudDiv.extractLsb' 8 4, baudL := s.cfg.baudDiv.extractLsb' 0 8,
          rxen := true, txen := false, rxcie := false, frameFmt := .f8n1, inited := true }) ∧
    (s.inited = true → exec .initRxPolled s = .refused .initTwice)) ∧
  (∀ s t : State, exec .initRxPolled s = .next t → t.HandlerOff ∧ t.rxen = true) ∧ HandlerStaysOff

/-- R94: INIT_TXRX_POLLED, and its corner case, as R93's for the receive side. -/
def Obligations.InitTxrxPolledEffect : Prop :=
  encode .initTxrxPolled = 0xB00#12 ∧ agentOf .initTxrxPolled = .consumer ∧
  (∀ s : State,
    (s.inited = false → s.cphase = .idle →
      exec .initTxrxPolled s = .next
        { s with
          baudH := s.cfg.baudDiv.extractLsb' 8 4, baudL := s.cfg.baudDiv.extractLsb' 0 8,
          rxen := true, txen := true, rxcie := false, frameFmt := .f8n1, inited := true }) ∧
    (s.inited = true → exec .initTxrxPolled s = .refused .initTwice)) ∧
  (∀ s t : State, exec .initTxrxPolled s = .next t → t.HandlerOff ∧ t.rxen = true) ∧ HandlerStaysOff

/-- R90: what the four init operations leave unchanged: every slot, the ring variables, `cphase`, the status
flags, the data register, the observations; and `gie` too, but for INIT_RX_IRQ. -/
def Obligations.InitFrame : Prop :=
  ∀ (i : Instr) (s t : State),
    (i = .initRxIrq ∨ i = .initTxOnly ∨ i = .initRxPolled ∨ i = .initTxrxPolled) →
    exec i s = .next t →
      (∀ a, t.slot? a = s.slot? a) ∧ t.head = s.head ∧ t.tail = s.tail ∧ t.lastError = s.lastError ∧
      t.cphase = s.cphase ∧ t.rxc = s.rxc ∧ t.udre = s.udre ∧ t.rxData = s.rxData ∧
      t.txData = s.txData ∧ t.hwOverrun = s.hwOverrun ∧ t.obs = s.obs ∧ t.held = s.held ∧
      t.returned = s.returned ∧ t.draws = s.draws ∧ t.cfg = s.cfg ∧ t.sched = s.sched ∧
      (i ≠ .initRxIrq → t.gie = s.gie)

/-- R192 and R3 ("configured once at startup and never reconfigured at runtime"): once an init has run, no
operation but RESET changes the mode, the frame format or the divisor, or forgets the init. -/
def Obligations.ConfiguredOnlyOnce : Prop :=
  ∀ (i : Instr) (s t : State), s.inited = true → i ≠ .reset → exec i s = .next t →
    t.inited = true ∧ t.rxen = s.rxen ∧ t.txen = s.txen ∧ t.rxcie = s.rxcie ∧
      t.frameFmt = s.frameFmt ∧ t.baudH = s.baudH ∧ t.baudL = s.baudL ∧ t.cfg = s.cfg

/-! ### The producer side -/

/-- R101: RX_ARRIVE with the receiver free, and with the previous byte unread; it looks at none of `gie`,
`rxcie`, `cphase`. -/
def Obligations.RxArriveEffect : Prop :=
  ∀ (b : Byte) (s : State),
    encode (.rxArrive b) = 0x200#12 ||| b.zeroExtend 12 ∧ agentOf (.rxArrive b) = .env ∧
    (s.rxen = true → s.rxc = false →
      exec (.rxArrive b) s = .next
        { s with
          rxData := b, rxc := true,
          obs := { s.obs with arrived := s.obs.arrived ++ [b], latched := s.obs.latched ++ [b] } }) ∧
    (s.rxen = true → s.rxc = true →
      exec (.rxArrive b) s = .next
        { s with hwOverrun := true, obs := { s.obs with arrived := s.obs.arrived ++ [b] } })

/-- What RX_ARRIVE leaves unchanged (R101): the ring and every slot, the flag, the transmit side, the enables,
`gie`, the consumer's place; and while a byte waits, that byte. -/
def Obligations.RxArriveFrame : Prop :=
  ∀ (b : Byte) (s t : State), exec (.rxArrive b) s = .next t →
    (∀ a, t.slot? a = s.slot? a) ∧ t.head = s.head ∧ t.tail = s.tail ∧ t.lastError = s.lastError ∧
    t.txData = s.txData ∧ t.udre = s.udre ∧ t.rxen = s.rxen ∧ t.txen = s.txen ∧ t.rxcie = s.rxcie ∧
    t.frameFmt = s.frameFmt ∧ t.baudH = s.baudH ∧ t.baudL = s.baudL ∧ t.gie = s.gie ∧
    t.inited = s.inited ∧ t.cphase = s.cphase ∧ t.held = s.held ∧ t.returned = s.returned ∧
    t.draws = s.draws ∧ t.cfg = s.cfg ∧ t.sched = s.sched ∧
    (s.rxc = true → t.rxData = s.rxData ∧ t.rxc = true) ∧
    t.obs.accepted = s.obs.accepted ∧ t.obs.dropped = s.obs.dropped ∧
    t.obs.delivered = s.obs.delivered ∧ t.obs.wire = s.obs.wire

/-- R103: ISR_RXC, enabled exactly when `rxc`, `rxcie` and `gie` are 1: the not-full case, the full case, and
the refusal (R184) when it is not enabled. `rx_data` is unspecified once read (R31, log entry 4), so the next
state holds some byte there. -/
def Obligations.IsrRxcEffect : Prop :=
  encode .isrRxc = 0x300#12 ∧ agentOf .isrRxc = .producer ∧
  ∀ s : State, s.cfg.wf = true →
    let c := (s.head.toNat + 1) &&& (s.cfg.N - 1)
    (s.rxc = true → s.rxcie = true → s.gie = true → c ≠ s.tail.toNat →
      ∃ junk n, exec .isrRxc s = .next
        { s with
          rxc := false, rxData := junk, draws := n,
          buf := s.buf.write c s.rxData, head := BitVec.ofNat 8 c,
          obs := { s.obs with accepted := s.obs.accepted ++ [s.rxData] } }) ∧
    (s.rxc = true → s.rxcie = true → s.gie = true → c = s.tail.toNat →
      ∃ junk n, exec .isrRxc s = .next
        { s with
          rxc := false, rxData := junk, draws := n, lastError := s.cfg.errFull,
          obs := { s.obs with dropped := s.obs.dropped ++ [s.rxData] } }) ∧
    (¬(s.rxc = true ∧ s.rxcie = true ∧ s.gie = true) → exec .isrRxc s = .refused .wrongContext)

/-- What ISR_RXC leaves unchanged (R103, R109): every slot but the one it stores at (none in the full case),
`tail`, the transmit side, the enables, `gie`, the consumer's place; and the slot it stores at then holds
the byte. -/
def Obligations.IsrRxcFrame : Prop :=
  ∀ s t : State, s.buf.wf = true → exec .isrRxc s = .next t →
    let c := s.candidateHead
    (c ≠ s.tail → t.slot? c.toNat = some s.rxData) ∧
    (∀ a, c = s.tail ∨ a ≠ c.toNat → t.slot? a = s.slot? a) ∧
    (t.head = if c = s.tail then s.head else c) ∧
    (t.lastError = if c = s.tail then s.cfg.errFull else s.lastError) ∧
    t.tail = s.tail ∧ t.txData = s.txData ∧ t.udre = s.udre ∧ t.rxen = s.rxen ∧ t.txen = s.txen ∧
    t.rxcie = s.rxcie ∧ t.frameFmt = s.frameFmt ∧ t.baudH = s.baudH ∧ t.baudL = s.baudL ∧
    t.gie = s.gie ∧ t.inited = s.inited ∧ t.cphase = s.cphase ∧ t.hwOverrun = s.hwOverrun ∧
    t.held = s.held ∧ t.returned = s.returned ∧ t.cfg = s.cfg ∧ t.sched = s.sched ∧
    t.obs.arrived = s.obs.arrived ∧ t.obs.latched = s.obs.latched ∧
    t.obs.delivered = s.obs.delivered ∧ t.obs.wire = s.obs.wire

/-- R104: after every ISR_RXC step `rxc` is 0, stored or dropped, so the handler is not enabled again; and
the byte is in one of the two places and no more in the hardware. -/
def Obligations.IsrRxcAlwaysReadsTheDataRegister : Prop :=
  ∀ s t : State, exec .isrRxc s = .next t →
    t.rxc = false ∧ t.pending = [] ∧ exec .isrRxc t = .refused .wrongContext ∧
    ((t.obs.accepted = s.obs.accepted ++ [s.rxData] ∧ t.obs.dropped = s.obs.dropped) ∨
      (t.obs.accepted = s.obs.accepted ∧ t.obs.dropped = s.obs.dropped ++ [s.rxData]))

/-- R111: the effect of one ISR_RXC step on the derived quantities of R25. -/
def Obligations.IsrRxcEffectOnCount : Prop :=
  ∀ s t : State, s.InRange → s.buf.wf = true → exec .isrRxc s = .next t →
    (s.count < s.cfg.N - 1 →
      t.count = s.count + 1 ∧ t.head = indexSucc s.cfg s.head ∧ t.queue = s.queue ++ [s.rxData] ∧
        t.isEmpty = false) ∧
    (s.count = s.cfg.N - 1 →
      t.count = s.count ∧ t.head = s.head ∧ t.buf = s.buf ∧ t.lastError = s.cfg.errFull) ∧
    t.tail = s.tail ∧ t.rxc = false ∧ t.cphase = s.cphase

/-- R137: the handler writes only slot `succ(head)`, and only when that is not `tail`; so never slot `tail`,
nor the byte a `getByte` is about to read, nor any slot that holds an undelivered byte; and nothing when the
ring is full. -/
def Obligations.ProtectedSlots : Prop :=
  ∀ s t : State, s.InRange → s.buf.wf = true → exec .isrRxc s = .next t →
    (∀ a, t.slot? a ≠ s.slot? a →
      a = ((s.head.toNat + 1) &&& (s.cfg.N - 1)) ∧ a ≠ s.tail.toNat) ∧
    t.slot? s.tail.toNat = s.slot? s.tail.toNat ∧ t.inflight = s.inflight ∧
    (s.count = s.cfg.N - 1 → t.buf = s.buf) ∧
    ∀ k, 1 ≤ k → k ≤ s.count → t.slot? (s.slotAfterTail k) = s.slot? (s.slotAfterTail k)

/-- R165: ISR_TXC changes nothing; that it may be taken in any state, not only with `gie` 1, is the model's
choice among the readings R165 allows (log entry 17). -/
def Obligations.IsrTxcChangesNothing : Prop :=
  encode .isrTxc = 0x800#12 ∧ agentOf .isrTxc = .hook ∧ ∀ s : State, exec .isrTxc s = .next s

/-- R168, R169: interrupt entry masks interrupts, return unmasks them, and neither changes anything else;
the handler is such an entry, the push of the byte read, and such a return. R167, R206: in a run that is
weakly fair to the handler, a pending and enabled interrupt does not wait for ever. -/
def Obligations.InterruptEntryAndReturn : Prop :=
  (∀ s : State, s.enterInterrupt = { s with gie := false } ∧ s.returnInterrupt = { s with gie := true }) ∧
  (∀ s t : State, exec .isrRxc s = .next t →
    s.gie = true ∧
      ∃ u, s.enterInterrupt.afterDataRead.push s.rxData = some u ∧ u.gie = false ∧
        t = u.returnInterrupt) ∧
  ∀ (r : Run) (n : Nat), r.valid → r.fairIsrRxc → (r.state n).inited = true →
    (r.state n).rxcTaken = true → ∃ m, n < m ∧ (r.state m).rxc = false

/-! ### The consumer side -/

/-- R116: GB_CHECK on an empty and on a non-empty buffer, and its two refusals. -/
def Obligations.GbCheckEffect : Prop :=
  encode .gbCheck = 0x400#12 ∧ agentOf .gbCheck = .consumer ∧
  ∀ s : State,
    (s.inited = true → s.cphase = .idle → s.tail = s.head →
      exec .gbCheck s = .next { s with returned := s.returned ++ [.getByte s.cfg.emptySentinel] } ∧
        (s.cfg.wf = true → s.cfg.emptySentinel = 0x00)) ∧
    (s.inited = true → s.cphase = .idle → s.tail ≠ s.head →
      exec .gbCheck s = .next { s with cphase := .nonempty }) ∧
    (s.inited = false → exec .gbCheck s = .refused .notInitialised) ∧
    (s.inited = true → s.cphase ≠ .idle → exec .gbCheck s = .refused .consumerBusy)

/-- R117: GB_ADVANCE, and its refusal. -/
def Obligations.GbAdvanceEffect : Prop :=
  encode .gbAdvance = 0x500#12 ∧ agentOf .gbAdvance = .consumer ∧
  ∀ s : State,
    (s.cphase = .nonempty →
      exec .gbAdvance s = .next
        { s with
          tail := BitVec.ofNat 8 ((s.tail.toNat + 1) &&& (s.cfg.N - 1)), cphase := .advanced }) ∧
    (s.cphase ≠ .nonempty → exec .gbAdvance s = .refused .outOfSequence)

/-- R118: GB_READ, for a `tail` that is an index (R26), and its refusal. -/
def Obligations.GbReadEffect : Prop :=
  encode .gbRead = 0x600#12 ∧ agentOf .gbRead = .consumer ∧
  ∀ s : State,
    (∀ v, s.cphase = .advanced → s.slot? s.tail.toNat = some v →
      exec .gbRead s = .next
        { s with
          cphase := .idle, obs := { s.obs with delivered := s.obs.delivered ++ [v] },
          returned := s.returned ++ [.getByte v] }) ∧
    (s.tail.toNat < s.cfg.N → s.slot? s.tail.toNat = some (s.buf.read s.tail.toNat)) ∧
    (s.cphase ≠ .advanced → exec .gbRead s = .refused .outOfSequence)

/-- The model's own stop (log entry 18): a `tail` that is no index names no slot, and GB_READ faults. R26
says no run reaches such a state. -/
def Obligations.GbReadFaultsOutsideTheRing : Prop :=
  ∀ s : State, s.cphase = .advanced → s.cfg.N ≤ s.tail.toNat → exec .gbRead s = .fault .noSuchSlot

/-- R121: GET_ERROR returns the flag and changes nothing, before init too; its refusal. -/
def Obligations.GetErrorEffect : Prop :=
  encode .getError = 0x700#12 ∧ agentOf .getError = .consumer ∧
  ∀ s : State,
    (s.cphase = .idle →
      exec .getError s = .next { s with returned := s.returned ++ [.getError s.lastError] }) ∧
    (s.cphase ≠ .idle → exec .getError s = .refused .consumerBusy)

/-- What the consumer's receive operations leave unchanged (R124, R130): every slot, `head`, the flag, both
sides of the data register, the status and enable flags, `gie`; and `tail` too, but for GB_ADVANCE. -/
def Obligations.ConsumerFrame : Prop :=
  ∀ (i : Instr) (s t : State),
    (i = .gbCheck ∨ i = .gbAdvance ∨ i = .gbRead ∨ i = .getError) → exec i s = .next t →
      (∀ a, t.slot? a = s.slot? a) ∧ t.head = s.head ∧ t.lastError = s.lastError ∧
      t.rxData = s.rxData ∧ t.txData = s.txData ∧ t.rxc = s.rxc ∧ t.udre = s.udre ∧
      t.rxen = s.rxen ∧ t.txen = s.txen ∧ t.rxcie = s.rxcie ∧ t.frameFmt = s.frameFmt ∧
      t.baudH = s.baudH ∧ t.baudL = s.baudL ∧ t.gie = s.gie ∧ t.inited = s.inited ∧
      t.hwOverrun = s.hwOverrun ∧ t.held = s.held ∧ t.draws = s.draws ∧ t.cfg = s.cfg ∧
      t.sched = s.sched ∧ (i ≠ .gbAdvance → t.tail = s.tail) ∧
      (i ≠ .gbRead → t.obs = s.obs) ∧
      t.obs.arrived = s.obs.arrived ∧ t.obs.latched = s.obs.latched ∧
      t.obs.accepted = s.obs.accepted ∧ t.obs.dropped = s.obs.dropped ∧ t.obs.wire = s.obs.wire

/-- R120 and R184 (CONSUMER_BUSY): while a `getByte` is in progress the only CONSUMER operation that is not
refused is its next step. -/
def Obligations.OneConsumerCallAtATime : Prop :=
  ∀ (i : Instr) (s : State), agentOf i = .consumer → s.cphase ≠ .idle →
    ¬(i = .gbAdvance ∧ s.cphase = .nonempty) → ¬(i = .gbRead ∧ s.cphase = .advanced) →
      ∃ r, exec i s = .refused r

/-- R122: a `getByte` that found the buffer not empty finds it so until its GB_ADVANCE, whatever steps fall
between. -/
def Obligations.NonemptyDecisionStaysRight : Prop :=
  (∀ s t : State, s.InRange → s.buf.wf = true → step s = .next t →
    (s.cphase = .nonempty → 1 ≤ s.count) → t.cphase = .nonempty → 1 ≤ t.count) ∧
  ∀ (i : Instr) (s t : State), s.InRange → s.buf.wf = true → (s.cphase = .nonempty → 1 ≤ s.count) →
    exec i s = .next t → t.count < s.count → i = .gbAdvance ∨ i = .reset

/-- R125: one whole `getByte` with no producer step in between, on a non-empty and on an empty buffer. -/
def Obligations.GetByteCallEffect : Prop :=
  ∀ s : State, s.InRange → s.inited = true → s.cphase = .idle →
    (1 ≤ s.count → ∃ v t, s.slot? ((s.tail.toNat + 1) &&& (s.cfg.N - 1)) = some v ∧
      s.queue.head? = some v ∧ callGetByte s = .next t ∧
      t = { s with
        tail := indexSucc s.cfg s.tail,
        obs := { s.obs with delivered := s.obs.delivered ++ [v] },
        returned := s.returned ++ [.getByte v] } ∧
      t.count + 1 = s.count ∧ t.queue = s.queue.tail) ∧
    (s.count = 0 →
      callGetByte s = .next { s with returned := s.returned ++ [.getByte 0x00] })

/-! ### The transmit path -/

/-- R151: SEND_BYTE writes the data register when it is empty, waits while it is not, and is refused before
init, with the transmitter off and inside a `getByte`. -/
def Obligations.SendByteEffect : Prop :=
  ∀ (b : Byte) (s : State),
    encode (.sendByte b) = 0xC00#12 ||| b.zeroExtend 12 ∧ agentOf (.sendByte b) = .consumer ∧
    (s.inited = true → s.txen = true → s.cphase = .idle → s.udre = true →
      exec (.sendByte b) s = .next { s with txData := b, udre := false, held := none }) ∧
    (s.inited = true → s.txen = true → s.cphase = .idle → s.udre = false →
      exec (.sendByte b) s = .next { s with held := some b }) ∧
    (s.inited = false → exec (.sendByte b) s = .refused .notInitialised) ∧
    (s.inited = true → s.txen = false → exec (.sendByte b) s = .refused .txDisabled) ∧
    (s.inited = true → s.txen = true → s.cphase ≠ .idle →
      exec (.sendByte b) s = .refused .consumerBusy)

/-- R152: TX_DRAIN latches the waiting byte. -/
def Obligations.TxDrainEffect : Prop :=
  encode .txDrain = 0xD00#12 ∧ agentOf .txDrain = .env ∧
  ∀ s : State, s.txen = true → s.udre = false →
    exec .txDrain s = .next { s with udre := true, obs := { s.obs with wire := s.obs.wire ++ [s.txData] } }

/-- What the transmit path leaves unchanged (R150): every slot and the whole ring, the receive side, the
enables, `gie`, the consumer's place. -/
def Obligations.TransmitFrame : Prop :=
  ∀ (i : Instr) (s t : State), ((∃ b, i = .sendByte b) ∨ i = .txDrain) → exec i s = .next t →
    (∀ a, t.slot? a = s.slot? a) ∧ t.head = s.head ∧ t.tail = s.tail ∧ t.lastError = s.lastError ∧
    t.rxData = s.rxData ∧ t.rxc = s.rxc ∧ t.rxen = s.rxen ∧ t.txen = s.txen ∧ t.rxcie = s.rxcie ∧
    t.frameFmt = s.frameFmt ∧ t.baudH = s.baudH ∧ t.baudL = s.baudL ∧ t.gie = s.gie ∧
    t.inited = s.inited ∧ t.cphase = s.cphase ∧ t.hwOverrun = s.hwOverrun ∧
    t.returned = s.returned ∧ t.draws = s.draws ∧ t.cfg = s.cfg ∧ t.sched = s.sched ∧
    t.obs.arrived = s.obs.arrived ∧ t.obs.latched = s.obs.latched ∧ t.obs.accepted = s.obs.accepted ∧
    t.obs.dropped = s.obs.dropped ∧ t.obs.delivered = s.obs.delivered ∧
    (i = .txDrain → t.txData = s.txData ∧ t.held = s.held) ∧ (i ≠ .txDrain → t.obs = s.obs)

/-- R153: sending a line, each byte latched before the next is sent, puts on the wire exactly the bytes
before its first 0x00, in order, and one newline, and nothing else of the machine moves but the data
register. -/
def Obligations.SendLineTransmitsThePayload : Prop :=
  ∀ (s : State) (line rest : List Byte), s.inited = true → s.txen = true → s.cphase = .idle →
    s.udre = true → s.held = none → (∀ b ∈ line, b ≠ 0x00) →
      let sent := line ++ [s.cfg.newline]
      sendLineSteps s.cfg (line ++ 0x00 :: rest) = some (sent.map .sendByte) ∧
      runAll (sendSteps sent) s = .next
        { s with txData := s.cfg.newline, obs := { s.obs with wire := s.obs.wire ++ sent } } ∧
      (s.cfg.wf = true → s.cfg.newline = 0x0A)

/-- R151 corner case (a): while a SEND_BYTE waits, a step takes no operation of the consumer: no `getByte`
advances or returns, nothing is handed back, no init runs, no data is written, and the call goes on waiting,
unless the step is a RESET. -/
def Obligations.WaitingConsumerTakesNoOtherStep : Prop :=
  ∀ (s t : State) (b : Byte), s.held = some b → s.udre = false → s.inited = true → s.txen = true →
    s.cphase = .idle → step s = .next t →
      (t.held = some b ∧ t.tail = s.tail ∧ t.cphase = .idle ∧ t.returned = s.returned ∧
        t.obs.delivered = s.obs.delivered ∧ t.txData = s.txData ∧ t.inited = true ∧
        t.txen = s.txen ∧ t.rxen = s.rxen ∧ t.rxcie = s.rxcie ∧ t.gie = s.gie) ∨
      ∃ u : State, u.cfg = s.cfg ∧ u.draws = s.draws ∧ t = u.powerOn

/-- R151, the hold lifted: once `udre` is 1 the consumer's own turn completes the waiting call with its byte,
whether the schedule is empty or its next word is the consumer's; an other agent's word is run first. And
(R152, R206) in a run that is weakly fair to TX_DRAIN, `udre` does not stay 0 for ever. -/
def Obligations.HoldIsLiftedByTheDrain : Prop :=
  (∀ (r : Run) (n : Nat), r.valid → r.fairTxDrain → (r.state n).inited = true →
    (r.state n).txPending = true → ∃ m, n < m ∧ (r.state m).udre = true) ∧
  ∀ (s : State) (b : Byte), s.cfg.wf = true → s.held = some b → s.udre = true → s.inited = true →
    s.txen = true → s.cphase = .idle →
      (s.sched = [] → step s = .next { s with txData := b, udre := false, held := none }) ∧
      (∀ w ws i, s.sched = w :: ws → decode w = .ok i → agentOf i = .consumer →
        step s = .next { s with txData := b, udre := false, held := none }) ∧
      (∀ w ws i, s.sched = w :: ws → decode w = .ok i → agentOf i ≠ .consumer →
        step s = exec i { s with sched := ws })

/-- R151 corner case (b): if the transmitter never drains, the hold never lifts: with nothing but words of
the consumer left in the schedule, every number of steps leaves the machine where it is. That the waiting call
is the field `held`, that a hang is steps which answer the very same state, and that the consumer's words are
kept meanwhile, is the model's choice (log entry 7). -/
def Obligations.StalledTransmitterHangs : Prop :=
  ∀ (s : State) (b : Byte) (n : Nat), s.cfg.wf = true → s.held = some b → s.udre = false →
    s.inited = true → s.txen = true → s.cphase = .idle →
    (∀ w ∈ s.sched, ∃ i, decode w = .ok i ∧ agentOf i = .consumer) →
      Host.Core.run core n s = .next s

/-! ### Index arithmetic -/

/-- R57: the successor is `i + 1` below `N - 1` and 0 at `N - 1`, and it is `(i + 1) mod N`. -/
def Obligations.IndexSuccessorWraps : Prop :=
  ∀ (c : Config) (i : Byte), c.wf = true → i.toNat < c.N →
    (i.toNat < c.N - 1 → (indexSucc c i).toNat = i.toNat + 1) ∧
    (i.toNat = c.N - 1 → (indexSucc c i).toNat = 0) ∧
    (indexSucc c i).toNat = (i.toNat + 1) % c.N

/-- R25: the derived predicates of the ring and the place of the undelivered bytes. -/
def Obligations.RingPredicates : Prop :=
  ∀ s : State, s.InRange →
    (s.head = s.tail ↔ s.count = 0) ∧
    (((s.head.toNat + 1) &&& (s.cfg.N - 1)) = s.tail.toNat ↔ s.count = s.cfg.N - 1) ∧
    s.count ≤ s.cfg.N - 1 ∧
    ((s.count : Int) = ((s.head.toNat : Int) - s.tail.toNat) % s.cfg.N) ∧
    ((s.tail.toNat + s.count) &&& (s.cfg.N - 1)) = s.head.toNat ∧
    s.queue.length = s.count ∧
    ∀ k, 1 ≤ k → k ≤ s.count → s.queue[k - 1]? = s.slot? ((s.tail.toNat + k) &&& (s.cfg.N - 1))

/-! ### Whole-machine rules -/

/-- R130: one writer per field: `head` and the slots change only in ISR_RXC, `tail` only in GB_ADVANCE,
`last_error` only in ISR_RXC and there only to `ERR_FULL` (RESET apart); and R37: `gie` between steps changes
only in INIT_RX_IRQ, which sets it, since the masked window and interrupt entry and return leave it as it
was. -/
def Obligations.OneWriterPerField : Prop :=
  ∀ (i : Instr) (s t : State), i ≠ .reset → exec i s = .next t →
    (t.head ≠ s.head → i = .isrRxc) ∧
    ((∃ a, t.slot? a ≠ s.slot? a) → i = .isrRxc) ∧
    (t.tail ≠ s.tail → i = .gbAdvance) ∧
    (t.lastError ≠ s.lastError → i = .isrRxc ∧ t.lastError = s.cfg.errFull) ∧
    (t.gie ≠ s.gie → i = .initRxIrq ∧ t.gie = true)

/-- R131: only GB_CHECK (in its masked window) and ISR_RXC read `head`, and the handler does not look at
`cphase` (V19): every other operation does the same whatever `head` holds. -/
def Obligations.HeadIsReadOnlyInTheWindow : Prop :=
  (∀ (i : Instr) (s : State) (h : Byte), i ≠ .reset → i ≠ .gbCheck → i ≠ .isrRxc →
    exec i { s with head := h } = mapNext (fun t => { t with head := h }) (exec i s)) ∧
  ∀ (s : State) (p : CPhase),
    exec .isrRxc { s with cphase := p } = mapNext (fun t => { t with cphase := p }) (exec .isrRxc s)

/-- R15, R34, R35, R40: no operation reads the observations, the ghost `hw_overrun`, the values handed back,
the frame format or the divisor registers: two states that differ only there go on alike. -/
def Obligations.GhostsAreNotRead : Prop :=
  ∀ (i : Instr) (s s' : State), s.blankUnread = s'.blankUnread →
    mapNext State.blankUnread (exec i s) = mapNext State.blankUnread (exec i s')

/-- R24, R145: the flag is sticky: once `ERR_FULL` it stays so through every operation but RESET, GET_ERROR
among them. -/
def Obligations.OverflowFlagIsSticky : Prop :=
  ∀ (i : Instr) (s t : State), i ≠ .reset → s.lastError = s.cfg.errFull → exec i s = .next t →
    t.lastError = t.cfg.errFull

/-- Every step keeps the storage in canonical form and inside the ring (R21, R26). -/
def Obligations.StorageStaysCanonical : Prop :=
  ∀ s t : State, s.StorageOk → step s = .next t → t.StorageOk

/-- R26: both indices stay below `N` from reset on, so no step ever names a slot that does not exist. -/
def Obligations.IndicesStayInRange : Prop :=
  State.reset.InRange ∧
  (∀ s t : State, s.InRange → step s = .next t → t.InRange) ∧
  ∀ (s : State) (f : Fault), s.InRange → step s ≠ .fault f

/-- R138: the ring invariant holds at reset and is kept by every step: what was accepted is what was delivered,
what is being read and what is queued, in order; the flag tells whether anything was dropped; a decision to
read is never wrong. Clause (b) of the rule is said of every state whose indices are in range. -/
def Obligations.RingInvariantIsKept : Prop :=
  (∀ (c : Config) (ws : List Cmd), c.wf = true →
    State.RingInv (State.resetIn c ws)) ∧
  (∀ s : State, s.RingInv → s.count ≤ s.cfg.N - 1) ∧
  ∀ s t : State, s.StorageOk → s.RingInv → step s = .next t → t.RingInv

/-- R38: the mode is always one of the five rows of its table, and the registers agree with it, at every
step. -/
def Obligations.ModeStaysLegal : Prop :=
  ∀ s t : State, s.PortInv → s.HeldInv → step s = .next t → t.PortInv ∧ t.HeldInv

/-- R15, R101, R140, R164: what the receiver kept is, at every step, exactly what was stored, dropped or still
waits, each part in arrival order, each byte handled at most once. -/
def Obligations.EveryByteIsAccountedFor : Prop :=
  ∀ s t : State, s.TraceInv → step s = .next t → t.TraceInv

/-- The state after reset meets every invariant, in every well-formed configuration and under every
schedule (R42, R138: "Each holds at reset"). The values log entries 2, 5, 7, 8 name are not used. -/
def Obligations.ResetMeetsEveryInvariant : Prop :=
  ∀ (c : Config) (ws : List Cmd), c.wf = true →
    State.Inv (State.resetIn c ws)

/-- Every run from reset, in every well-formed configuration, under every schedule and of every length, meets
every invariant and never faults (R26, R138, R140). -/
def Obligations.EveryRunMeetsEveryInvariant : Prop :=
  ∀ (c : Config) (ws : List Cmd) (n : Nat), c.wf = true →
    (∀ t, Host.Core.run core n (State.resetIn c ws) = .next t → State.Inv t) ∧
    ∀ f, Host.Core.run core n (State.resetIn c ws) ≠ .fault f

/-- R140: after every step from a state of the invariants, delivered bytes are a prefix of the accepted ones,
and those, in arrival order, are among the arrived ones (no reordering, no duplication); and the step takes
none of these sequences back, unless it starts a new run of them (a RESET). -/
def Obligations.DeliveryKeepsArrivalOrder : Prop :=
  ∀ s t : State, s.Inv → step s = .next t →
    t.obs.delivered <+: t.obs.accepted ∧ t.obs.delivered.Sublist t.obs.arrived ∧
      t.obs.accepted.Sublist t.obs.arrived ∧
      (t.obs.delivered ++ t.inflight ++ t.queue ++ t.obs.dropped ++ t.pending).Perm t.obs.latched ∧
      (t.obs = {} ∨ s.obs.arrived <+: t.obs.arrived ∧ s.obs.accepted <+: t.obs.accepted ∧
        s.obs.delivered <+: t.obs.delivered)

/-- R208: with no hardware overrun and no overflow nothing is lost: `delivered` is a prefix of `arrived`, the
flag reads no-error, and at a quiescent state with nothing queued everything that arrived was delivered. -/
def Obligations.NoLossUnderTheLaunchPremises : Prop :=
  ∀ s : State, s.RingInv → s.TraceInv → s.hwOverrun = false → s.obs.dropped = [] →
    s.obs.delivered <+: s.obs.arrived ∧ s.lastError = s.cfg.errNone ∧
      (s.Quiescent → s.head = s.tail → s.obs.delivered = s.obs.arrived)

/-- R141: every operation is a step of a sequential bounded FIFO of capacity `N - 1`: ISR_RXC pushes,
GB_ADVANCE pops, RESET empties, nothing else touches it; GB_READ returns what GB_ADVANCE popped, and GB_CHECK
returns 0x00 exactly when the FIFO is empty. -/
def Obligations.RingRefinesABoundedFifo : Prop :=
  ∀ (i : Instr) (s t : State), s.InRange → s.StorageOk → (s.cphase = .nonempty → 1 ≤ s.count) →
    exec i s = .next t →
      t.fifo = fifoStep i s ∧
      (i = .gbAdvance → s.fifo.items.head? = some (t.buf.read t.tail.toNat)) ∧
      (i = .gbRead → t.returned = s.returned ++ [.getByte (s.buf.read s.tail.toNat)]) ∧
      (i = .gbCheck →
        (s.fifo.items = [] ∧ t.returned = s.returned ++ [.getByte 0x00]) ∨
          (s.fifo.items ≠ [] ∧ t.returned = s.returned ∧ t.cphase = .nonempty))

/-- R142: from an empty buffer, `k` bytes that arrive and are handled with no consumption in between: the
first `N - 1` are stored in order, the others are dropped, and the flag is set if any was. -/
def Obligations.CapacityIsOneLessThanN : Prop :=
  ∀ (s : State) (bs : List Byte), s.InRange → s.StorageOk → s.Armed → s.head = s.tail →
    ∃ t, runAll (produceSteps bs) s = .next t ∧
      t.queue = bs.take (s.cfg.N - 1) ∧ t.tail = s.tail ∧
      t.obs.accepted = s.obs.accepted ++ bs.take (s.cfg.N - 1) ∧
      t.obs.dropped = s.obs.dropped ++ bs.drop (s.cfg.N - 1) ∧
      t.obs.arrived = s.obs.arrived ++ bs ∧ t.hwOverrun = s.hwOverrun ∧
      t.lastError = if bs.length ≤ s.cfg.N - 1 then s.lastError else s.cfg.errFull

/-- R142, E1: as many `getByte` calls as bytes are held return exactly those bytes in order and leave the
buffer empty; the next call returns the sentinel. -/
def Obligations.DrainingReturnsTheBytesInOrder : Prop :=
  ∀ s : State, s.InRange → s.inited = true → s.cphase = .idle →
    ∃ t, runAll (consumeSteps s.count) s = .next t ∧
      t.returned = s.returned ++ s.queue.map .getByte ∧ t.queue = [] ∧ t.head = t.tail ∧
      t.head = s.head ∧ t.lastError = s.lastError ∧ t.cphase = .idle ∧
      callGetByte t = .next { t with returned := t.returned ++ [.getByte 0x00] }

/-- E4, R199: any number of bytes, each fetched before the next arrives, are all delivered in order, with no
loss and no error flag, in a buffer of any capacity. -/
def Obligations.KeepingUpLosesNothing : Prop :=
  ∀ (s : State) (bs : List Byte), s.InRange → s.StorageOk → s.Armed → s.inited = true →
    s.cphase = .idle → s.head = s.tail →
    ∃ t, runAll (keepUpSteps bs) s = .next t ∧
      t.obs.delivered = s.obs.delivered ++ bs ∧ t.obs.arrived = s.obs.arrived ++ bs ∧
      t.returned = s.returned ++ bs.map .getByte ∧ t.obs.dropped = s.obs.dropped ∧
      t.lastError = s.lastError ∧ t.hwOverrun = s.hwOverrun ∧ t.head = t.tail
end

