-- ==== Sys2Proof/Laws/Encoding.lean ====
section
/-! SUPPORT. The command word as a number: its two fields, and how a word is put together from them. -/

namespace Sys2Proof

theorem Cmd.op_val (w : Cmd) : Cmd.op w = w.toNat / 256 := by
  have := w.isLt
  simp only [Cmd.op, BitVec.extractLsb'_toNat, Nat.shiftRight_eq_div_pow]
  omega

theorem Cmd.arg_val (w : Cmd) : (Cmd.arg w).toNat = w.toNat % 256 := by
  simp [Cmd.arg, BitVec.extractLsb'_toNat]

theorem command_val (o : BitVec 4) (b : Byte) : (command o b).toNat = o.toNat * 256 + b.toNat := by
  have hb := b.isLt
  show BitVec.toNat (o ++ b) = _
  rw [BitVec.toNat_append, ← Nat.shiftLeft_add_eq_or_of_lt hb, Nat.shiftLeft_eq]

@[simp] theorem Cmd.op_command (o : BitVec 4) (b : Byte) : Cmd.op (command o b) = o.toNat := by
  rw [Cmd.op_val, command_val]; omega

@[simp] theorem Cmd.arg_command (o : BitVec 4) (b : Byte) : Cmd.arg (command o b) = b := by
  apply BitVec.eq_of_toNat_eq; rw [Cmd.arg_val, command_val]; omega

/-- A word is put together from its two fields. -/
theorem command_of_fields {w : Cmd} {o : BitVec 4} {b : Byte} (ho : Cmd.op w = o.toNat)
    (hb : Cmd.arg w = b) : command o b = w := by
  apply BitVec.eq_of_toNat_eq
  have h1 := Cmd.op_val w
  have h2 := Cmd.arg_val w
  rw [command_val, ← ho, ← hb]; omega

end Sys2Proof
end

