-- ==== Sys2Proof/Laws/State.lean ====
section
/-! SUPPORT. Each field of the state after each named update: one lemma per field per update, each true by
unfolding. -/

namespace Sys2Proof.Machine

variable (s : State)

@[simp] theorem State.raiseOverflow_cfg (b : Byte) : (s.raiseOverflow b).cfg = s.cfg := rfl
@[simp] theorem State.raiseOverflow_buf (b : Byte) : (s.raiseOverflow b).buf = s.buf := rfl
@[simp] theorem State.raiseOverflow_head (b : Byte) : (s.raiseOverflow b).head = s.head := rfl
@[simp] theorem State.raiseOverflow_tail (b : Byte) : (s.raiseOverflow b).tail = s.tail := rfl
@[simp] theorem State.raiseOverflow_lastError (b : Byte) :
    (s.raiseOverflow b).lastError = s.cfg.errFull := rfl
@[simp] theorem State.raiseOverflow_rxData (b : Byte) : (s.raiseOverflow b).rxData = s.rxData := rfl
@[simp] theorem State.raiseOverflow_txData (b : Byte) : (s.raiseOverflow b).txData = s.txData := rfl
@[simp] theorem State.raiseOverflow_rxc (b : Byte) : (s.raiseOverflow b).rxc = s.rxc := rfl
@[simp] theorem State.raiseOverflow_udre (b : Byte) : (s.raiseOverflow b).udre = s.udre := rfl
@[simp] theorem State.raiseOverflow_rxen (b : Byte) : (s.raiseOverflow b).rxen = s.rxen := rfl
@[simp] theorem State.raiseOverflow_txen (b : Byte) : (s.raiseOverflow b).txen = s.txen := rfl
@[simp] theorem State.raiseOverflow_rxcie (b : Byte) : (s.raiseOverflow b).rxcie = s.rxcie := rfl
@[simp] theorem State.raiseOverflow_frameFmt (b : Byte) : (s.raiseOverflow b).frameFmt = s.frameFmt := rfl
@[simp] theorem State.raiseOverflow_baudH (b : Byte) : (s.raiseOverflow b).baudH = s.baudH := rfl
@[simp] theorem State.raiseOverflow_baudL (b : Byte) : (s.raiseOverflow b).baudL = s.baudL := rfl
@[simp] theorem State.raiseOverflow_gie (b : Byte) : (s.raiseOverflow b).gie = s.gie := rfl
@[simp] theorem State.raiseOverflow_inited (b : Byte) : (s.raiseOverflow b).inited = s.inited := rfl
@[simp] theorem State.raiseOverflow_cphase (b : Byte) : (s.raiseOverflow b).cphase = s.cphase := rfl
@[simp] theorem State.raiseOverflow_hwOverrun (b : Byte) : (s.raiseOverflow b).hwOverrun = s.hwOverrun := rfl
@[simp] theorem State.raiseOverflow_obs (b : Byte) :
    (s.raiseOverflow b).obs = { s.obs with dropped := s.obs.dropped ++ [b] } := rfl
@[simp] theorem State.raiseOverflow_held (b : Byte) : (s.raiseOverflow b).held = s.held := rfl
@[simp] theorem State.raiseOverflow_returned (b : Byte) : (s.raiseOverflow b).returned = s.returned := rfl
@[simp] theorem State.raiseOverflow_draws (b : Byte) : (s.raiseOverflow b).draws = s.draws := rfl
@[simp] theorem State.raiseOverflow_sched (b : Byte) : (s.raiseOverflow b).sched = s.sched := rfl

@[simp] theorem State.enterWindow_cfg : s.enterWindow.cfg = s.cfg := rfl
@[simp] theorem State.enterWindow_buf : s.enterWindow.buf = s.buf := rfl
@[simp] theorem State.enterWindow_head : s.enterWindow.head = s.head := rfl
@[simp] theorem State.enterWindow_tail : s.enterWindow.tail = s.tail := rfl
@[simp] theorem State.enterWindow_lastError : s.enterWindow.lastError = s.lastError := rfl
@[simp] theorem State.enterWindow_rxData : s.enterWindow.rxData = s.rxData := rfl
@[simp] theorem State.enterWindow_txData : s.enterWindow.txData = s.txData := rfl
@[simp] theorem State.enterWindow_rxc : s.enterWindow.rxc = s.rxc := rfl
@[simp] theorem State.enterWindow_udre : s.enterWindow.udre = s.udre := rfl
@[simp] theorem State.enterWindow_rxen : s.enterWindow.rxen = s.rxen := rfl
@[simp] theorem State.enterWindow_txen : s.enterWindow.txen = s.txen := rfl
@[simp] theorem State.enterWindow_rxcie : s.enterWindow.rxcie = s.rxcie := rfl
@[simp] theorem State.enterWindow_frameFmt : s.enterWindow.frameFmt = s.frameFmt := rfl
@[simp] theorem State.enterWindow_baudH : s.enterWindow.baudH = s.baudH := rfl
@[simp] theorem State.enterWindow_baudL : s.enterWindow.baudL = s.baudL := rfl
@[simp] theorem State.enterWindow_gie : s.enterWindow.gie = false := rfl
@[simp] theorem State.enterWindow_inited : s.enterWindow.inited = s.inited := rfl
@[simp] theorem State.enterWindow_cphase : s.enterWindow.cphase = s.cphase := rfl
@[simp] theorem State.enterWindow_hwOverrun : s.enterWindow.hwOverrun = s.hwOverrun := rfl
@[simp] theorem State.enterWindow_obs : s.enterWindow.obs = s.obs := rfl
@[simp] theorem State.enterWindow_held : s.enterWindow.held = s.held := rfl
@[simp] theorem State.enterWindow_returned : s.enterWindow.returned = s.returned := rfl
@[simp] theorem State.enterWindow_draws : s.enterWindow.draws = s.draws := rfl
@[simp] theorem State.enterWindow_sched : s.enterWindow.sched = s.sched := rfl

@[simp] theorem State.leaveWindow_cfg (g : Bool) : (s.leaveWindow g).cfg = s.cfg := rfl
@[simp] theorem State.leaveWindow_buf (g : Bool) : (s.leaveWindow g).buf = s.buf := rfl
@[simp] theorem State.leaveWindow_head (g : Bool) : (s.leaveWindow g).head = s.head := rfl
@[simp] theorem State.leaveWindow_tail (g : Bool) : (s.leaveWindow g).tail = s.tail := rfl
@[simp] theorem State.leaveWindow_lastError (g : Bool) : (s.leaveWindow g).lastError = s.lastError := rfl
@[simp] theorem State.leaveWindow_rxData (g : Bool) : (s.leaveWindow g).rxData = s.rxData := rfl
@[simp] theorem State.leaveWindow_txData (g : Bool) : (s.leaveWindow g).txData = s.txData := rfl
@[simp] theorem State.leaveWindow_rxc (g : Bool) : (s.leaveWindow g).rxc = s.rxc := rfl
@[simp] theorem State.leaveWindow_udre (g : Bool) : (s.leaveWindow g).udre = s.udre := rfl
@[simp] theorem State.leaveWindow_rxen (g : Bool) : (s.leaveWindow g).rxen = s.rxen := rfl
@[simp] theorem State.leaveWindow_txen (g : Bool) : (s.leaveWindow g).txen = s.txen := rfl
@[simp] theorem State.leaveWindow_rxcie (g : Bool) : (s.leaveWindow g).rxcie = s.rxcie := rfl
@[simp] theorem State.leaveWindow_frameFmt (g : Bool) : (s.leaveWindow g).frameFmt = s.frameFmt := rfl
@[simp] theorem State.leaveWindow_baudH (g : Bool) : (s.leaveWindow g).baudH = s.baudH := rfl
@[simp] theorem State.leaveWindow_baudL (g : Bool) : (s.leaveWindow g).baudL = s.baudL := rfl
@[simp] theorem State.leaveWindow_gie (g : Bool) : (s.leaveWindow g).gie = g := rfl
@[simp] theorem State.leaveWindow_inited (g : Bool) : (s.leaveWindow g).inited = s.inited := rfl
@[simp] theorem State.leaveWindow_cphase (g : Bool) : (s.leaveWindow g).cphase = s.cphase := rfl
@[simp] theorem State.leaveWindow_hwOverrun (g : Bool) : (s.leaveWindow g).hwOverrun = s.hwOverrun := rfl
@[simp] theorem State.leaveWindow_obs (g : Bool) : (s.leaveWindow g).obs = s.obs := rfl
@[simp] theorem State.leaveWindow_held (g : Bool) : (s.leaveWindow g).held = s.held := rfl
@[simp] theorem State.leaveWindow_returned (g : Bool) : (s.leaveWindow g).returned = s.returned := rfl
@[simp] theorem State.leaveWindow_draws (g : Bool) : (s.leaveWindow g).draws = s.draws := rfl
@[simp] theorem State.leaveWindow_sched (g : Bool) : (s.leaveWindow g).sched = s.sched := rfl

@[simp] theorem State.unmask_cfg : s.unmask.cfg = s.cfg := rfl
@[simp] theorem State.unmask_buf : s.unmask.buf = s.buf := rfl
@[simp] theorem State.unmask_head : s.unmask.head = s.head := rfl
@[simp] theorem State.unmask_tail : s.unmask.tail = s.tail := rfl
@[simp] theorem State.unmask_lastError : s.unmask.lastError = s.lastError := rfl
@[simp] theorem State.unmask_rxData : s.unmask.rxData = s.rxData := rfl
@[simp] theorem State.unmask_txData : s.unmask.txData = s.txData := rfl
@[simp] theorem State.unmask_rxc : s.unmask.rxc = s.rxc := rfl
@[simp] theorem State.unmask_udre : s.unmask.udre = s.udre := rfl
@[simp] theorem State.unmask_rxen : s.unmask.rxen = s.rxen := rfl
@[simp] theorem State.unmask_txen : s.unmask.txen = s.txen := rfl
@[simp] theorem State.unmask_rxcie : s.unmask.rxcie = s.rxcie := rfl
@[simp] theorem State.unmask_frameFmt : s.unmask.frameFmt = s.frameFmt := rfl
@[simp] theorem State.unmask_baudH : s.unmask.baudH = s.baudH := rfl
@[simp] theorem State.unmask_baudL : s.unmask.baudL = s.baudL := rfl
@[simp] theorem State.unmask_gie : s.unmask.gie = true := rfl
@[simp] theorem State.unmask_inited : s.unmask.inited = s.inited := rfl
@[simp] theorem State.unmask_cphase : s.unmask.cphase = s.cphase := rfl
@[simp] theorem State.unmask_hwOverrun : s.unmask.hwOverrun = s.hwOverrun := rfl
@[simp] theorem State.unmask_obs : s.unmask.obs = s.obs := rfl
@[simp] theorem State.unmask_held : s.unmask.held = s.held := rfl
@[simp] theorem State.unmask_returned : s.unmask.returned = s.returned := rfl
@[simp] theorem State.unmask_draws : s.unmask.draws = s.draws := rfl
@[simp] theorem State.unmask_sched : s.unmask.sched = s.sched := rfl

@[simp] theorem State.afterDataRead_cfg : s.afterDataRead.cfg = s.cfg := rfl
@[simp] theorem State.afterDataRead_buf : s.afterDataRead.buf = s.buf := rfl
@[simp] theorem State.afterDataRead_head : s.afterDataRead.head = s.head := rfl
@[simp] theorem State.afterDataRead_tail : s.afterDataRead.tail = s.tail := rfl
@[simp] theorem State.afterDataRead_lastError : s.afterDataRead.lastError = s.lastError := rfl
@[simp] theorem State.afterDataRead_rxData : s.afterDataRead.rxData = Config.freeByte s.draws := rfl
@[simp] theorem State.afterDataRead_txData : s.afterDataRead.txData = s.txData := rfl
@[simp] theorem State.afterDataRead_rxc : s.afterDataRead.rxc = false := rfl
@[simp] theorem State.afterDataRead_udre : s.afterDataRead.udre = s.udre := rfl
@[simp] theorem State.afterDataRead_rxen : s.afterDataRead.rxen = s.rxen := rfl
@[simp] theorem State.afterDataRead_txen : s.afterDataRead.txen = s.txen := rfl
@[simp] theorem State.afterDataRead_rxcie : s.afterDataRead.rxcie = s.rxcie := rfl
@[simp] theorem State.afterDataRead_frameFmt : s.afterDataRead.frameFmt = s.frameFmt := rfl
@[simp] theorem State.afterDataRead_baudH : s.afterDataRead.baudH = s.baudH := rfl
@[simp] theorem State.afterDataRead_baudL : s.afterDataRead.baudL = s.baudL := rfl
@[simp] theorem State.afterDataRead_gie : s.afterDataRead.gie = s.gie := rfl
@[simp] theorem State.afterDataRead_inited : s.afterDataRead.inited = s.inited := rfl
@[simp] theorem State.afterDataRead_cphase : s.afterDataRead.cphase = s.cphase := rfl
@[simp] theorem State.afterDataRead_hwOverrun : s.afterDataRead.hwOverrun = s.hwOverrun := rfl
@[simp] theorem State.afterDataRead_obs : s.afterDataRead.obs = s.obs := rfl
@[simp] theorem State.afterDataRead_held : s.afterDataRead.held = s.held := rfl
@[simp] theorem State.afterDataRead_returned : s.afterDataRead.returned = s.returned := rfl
@[simp] theorem State.afterDataRead_draws : s.afterDataRead.draws = s.draws + 1 := rfl
@[simp] theorem State.afterDataRead_sched : s.afterDataRead.sched = s.sched := rfl

@[simp] theorem State.writeData_cfg (b : Byte) : (s.writeData b).cfg = s.cfg := rfl
@[simp] theorem State.writeData_buf (b : Byte) : (s.writeData b).buf = s.buf := rfl
@[simp] theorem State.writeData_head (b : Byte) : (s.writeData b).head = s.head := rfl
@[simp] theorem State.writeData_tail (b : Byte) : (s.writeData b).tail = s.tail := rfl
@[simp] theorem State.writeData_lastError (b : Byte) : (s.writeData b).lastError = s.lastError := rfl
@[simp] theorem State.writeData_rxData (b : Byte) : (s.writeData b).rxData = s.rxData := rfl
@[simp] theorem State.writeData_txData (b : Byte) : (s.writeData b).txData = b := rfl
@[simp] theorem State.writeData_rxc (b : Byte) : (s.writeData b).rxc = s.rxc := rfl
@[simp] theorem State.writeData_udre (b : Byte) : (s.writeData b).udre = false := rfl
@[simp] theorem State.writeData_rxen (b : Byte) : (s.writeData b).rxen = s.rxen := rfl
@[simp] theorem State.writeData_txen (b : Byte) : (s.writeData b).txen = s.txen := rfl
@[simp] theorem State.writeData_rxcie (b : Byte) : (s.writeData b).rxcie = s.rxcie := rfl
@[simp] theorem State.writeData_frameFmt (b : Byte) : (s.writeData b).frameFmt = s.frameFmt := rfl
@[simp] theorem State.writeData_baudH (b : Byte) : (s.writeData b).baudH = s.baudH := rfl
@[simp] theorem State.writeData_baudL (b : Byte) : (s.writeData b).baudL = s.baudL := rfl
@[simp] theorem State.writeData_gie (b : Byte) : (s.writeData b).gie = s.gie := rfl
@[simp] theorem State.writeData_inited (b : Byte) : (s.writeData b).inited = s.inited := rfl
@[simp] theorem State.writeData_cphase (b : Byte) : (s.writeData b).cphase = s.cphase := rfl
@[simp] theorem State.writeData_hwOverrun (b : Byte) : (s.writeData b).hwOverrun = s.hwOverrun := rfl
@[simp] theorem State.writeData_obs (b : Byte) : (s.writeData b).obs = s.obs := rfl
@[simp] theorem State.writeData_held (b : Byte) : (s.writeData b).held = s.held := rfl
@[simp] theorem State.writeData_returned (b : Byte) : (s.writeData b).returned = s.returned := rfl
@[simp] theorem State.writeData_draws (b : Byte) : (s.writeData b).draws = s.draws := rfl
@[simp] theorem State.writeData_sched (b : Byte) : (s.writeData b).sched = s.sched := rfl

@[simp] theorem State.setSlot_cfg (i : Nat) (v : Byte) : (s.setSlot i v).cfg = s.cfg := rfl
@[simp] theorem State.setSlot_buf (i : Nat) (v : Byte) : (s.setSlot i v).buf = s.buf.write i v := rfl
@[simp] theorem State.setSlot_head (i : Nat) (v : Byte) : (s.setSlot i v).head = s.head := rfl
@[simp] theorem State.setSlot_tail (i : Nat) (v : Byte) : (s.setSlot i v).tail = s.tail := rfl
@[simp] theorem State.setSlot_lastError (i : Nat) (v : Byte) : (s.setSlot i v).lastError = s.lastError := rfl
@[simp] theorem State.setSlot_rxData (i : Nat) (v : Byte) : (s.setSlot i v).rxData = s.rxData := rfl
@[simp] theorem State.setSlot_txData (i : Nat) (v : Byte) : (s.setSlot i v).txData = s.txData := rfl
@[simp] theorem State.setSlot_rxc (i : Nat) (v : Byte) : (s.setSlot i v).rxc = s.rxc := rfl
@[simp] theorem State.setSlot_udre (i : Nat) (v : Byte) : (s.setSlot i v).udre = s.udre := rfl
@[simp] theorem State.setSlot_rxen (i : Nat) (v : Byte) : (s.setSlot i v).rxen = s.rxen := rfl
@[simp] theorem State.setSlot_txen (i : Nat) (v : Byte) : (s.setSlot i v).txen = s.txen := rfl
@[simp] theorem State.setSlot_rxcie (i : Nat) (v : Byte) : (s.setSlot i v).rxcie = s.rxcie := rfl
@[simp] theorem State.setSlot_frameFmt (i : Nat) (v : Byte) : (s.setSlot i v).frameFmt = s.frameFmt := rfl
@[simp] theorem State.setSlot_baudH (i : Nat) (v : Byte) : (s.setSlot i v).baudH = s.baudH := rfl
@[simp] theorem State.setSlot_baudL (i : Nat) (v : Byte) : (s.setSlot i v).baudL = s.baudL := rfl
@[simp] theorem State.setSlot_gie (i : Nat) (v : Byte) : (s.setSlot i v).gie = s.gie := rfl
@[simp] theorem State.setSlot_inited (i : Nat) (v : Byte) : (s.setSlot i v).inited = s.inited := rfl
@[simp] theorem State.setSlot_cphase (i : Nat) (v : Byte) : (s.setSlot i v).cphase = s.cphase := rfl
@[simp] theorem State.setSlot_hwOverrun (i : Nat) (v : Byte) : (s.setSlot i v).hwOverrun = s.hwOverrun := rfl
@[simp] theorem State.setSlot_obs (i : Nat) (v : Byte) : (s.setSlot i v).obs = s.obs := rfl
@[simp] theorem State.setSlot_held (i : Nat) (v : Byte) : (s.setSlot i v).held = s.held := rfl
@[simp] theorem State.setSlot_returned (i : Nat) (v : Byte) : (s.setSlot i v).returned = s.returned := rfl
@[simp] theorem State.setSlot_draws (i : Nat) (v : Byte) : (s.setSlot i v).draws = s.draws := rfl
@[simp] theorem State.setSlot_sched (i : Nat) (v : Byte) : (s.setSlot i v).sched = s.sched := rfl

@[simp] theorem State.publishHead_cfg (h b : Byte) : (s.publishHead h b).cfg = s.cfg := rfl
@[simp] theorem State.publishHead_buf (h b : Byte) : (s.publishHead h b).buf = s.buf := rfl
@[simp] theorem State.publishHead_head (h b : Byte) : (s.publishHead h b).head = h := rfl
@[simp] theorem State.publishHead_tail (h b : Byte) : (s.publishHead h b).tail = s.tail := rfl
@[simp] theorem State.publishHead_lastError (h b : Byte) : (s.publishHead h b).lastError = s.lastError := rfl
@[simp] theorem State.publishHead_rxData (h b : Byte) : (s.publishHead h b).rxData = s.rxData := rfl
@[simp] theorem State.publishHead_txData (h b : Byte) : (s.publishHead h b).txData = s.txData := rfl
@[simp] theorem State.publishHead_rxc (h b : Byte) : (s.publishHead h b).rxc = s.rxc := rfl
@[simp] theorem State.publishHead_udre (h b : Byte) : (s.publishHead h b).udre = s.udre := rfl
@[simp] theorem State.publishHead_rxen (h b : Byte) : (s.publishHead h b).rxen = s.rxen := rfl
@[simp] theorem State.publishHead_txen (h b : Byte) : (s.publishHead h b).txen = s.txen := rfl
@[simp] theorem State.publishHead_rxcie (h b : Byte) : (s.publishHead h b).rxcie = s.rxcie := rfl
@[simp] theorem State.publishHead_frameFmt (h b : Byte) : (s.publishHead h b).frameFmt = s.frameFmt := rfl
@[simp] theorem State.publishHead_baudH (h b : Byte) : (s.publishHead h b).baudH = s.baudH := rfl
@[simp] theorem State.publishHead_baudL (h b : Byte) : (s.publishHead h b).baudL = s.baudL := rfl
@[simp] theorem State.publishHead_gie (h b : Byte) : (s.publishHead h b).gie = s.gie := rfl
@[simp] theorem State.publishHead_inited (h b : Byte) : (s.publishHead h b).inited = s.inited := rfl
@[simp] theorem State.publishHead_cphase (h b : Byte) : (s.publishHead h b).cphase = s.cphase := rfl
@[simp] theorem State.publishHead_hwOverrun (h b : Byte) : (s.publishHead h b).hwOverrun = s.hwOverrun := rfl
@[simp] theorem State.publishHead_obs (h b : Byte) :
    (s.publishHead h b).obs = { s.obs with accepted := s.obs.accepted ++ [b] } := rfl
@[simp] theorem State.publishHead_held (h b : Byte) : (s.publishHead h b).held = s.held := rfl
@[simp] theorem State.publishHead_returned (h b : Byte) : (s.publishHead h b).returned = s.returned := rfl
@[simp] theorem State.publishHead_draws (h b : Byte) : (s.publishHead h b).draws = s.draws := rfl
@[simp] theorem State.publishHead_sched (h b : Byte) : (s.publishHead h b).sched = s.sched := rfl

@[simp] theorem State.enterInterrupt_cfg : s.enterInterrupt.cfg = s.cfg := rfl
@[simp] theorem State.enterInterrupt_buf : s.enterInterrupt.buf = s.buf := rfl
@[simp] theorem State.enterInterrupt_head : s.enterInterrupt.head = s.head := rfl
@[simp] theorem State.enterInterrupt_tail : s.enterInterrupt.tail = s.tail := rfl
@[simp] theorem State.enterInterrupt_lastError : s.enterInterrupt.lastError = s.lastError := rfl
@[simp] theorem State.enterInterrupt_rxData : s.enterInterrupt.rxData = s.rxData := rfl
@[simp] theorem State.enterInterrupt_txData : s.enterInterrupt.txData = s.txData := rfl
@[simp] theorem State.enterInterrupt_rxc : s.enterInterrupt.rxc = s.rxc := rfl
@[simp] theorem State.enterInterrupt_udre : s.enterInterrupt.udre = s.udre := rfl
@[simp] theorem State.enterInterrupt_rxen : s.enterInterrupt.rxen = s.rxen := rfl
@[simp] theorem State.enterInterrupt_txen : s.enterInterrupt.txen = s.txen := rfl
@[simp] theorem State.enterInterrupt_rxcie : s.enterInterrupt.rxcie = s.rxcie := rfl
@[simp] theorem State.enterInterrupt_frameFmt : s.enterInterrupt.frameFmt = s.frameFmt := rfl
@[simp] theorem State.enterInterrupt_baudH : s.enterInterrupt.baudH = s.baudH := rfl
@[simp] theorem State.enterInterrupt_baudL : s.enterInterrupt.baudL = s.baudL := rfl
@[simp] theorem State.enterInterrupt_gie : s.enterInterrupt.gie = false := rfl
@[simp] theorem State.enterInterrupt_inited : s.enterInterrupt.inited = s.inited := rfl
@[simp] theorem State.enterInterrupt_cphase : s.enterInterrupt.cphase = s.cphase := rfl
@[simp] theorem State.enterInterrupt_hwOverrun : s.enterInterrupt.hwOverrun = s.hwOverrun := rfl
@[simp] theorem State.enterInterrupt_obs : s.enterInterrupt.obs = s.obs := rfl
@[simp] theorem State.enterInterrupt_held : s.enterInterrupt.held = s.held := rfl
@[simp] theorem State.enterInterrupt_returned : s.enterInterrupt.returned = s.returned := rfl
@[simp] theorem State.enterInterrupt_draws : s.enterInterrupt.draws = s.draws := rfl
@[simp] theorem State.enterInterrupt_sched : s.enterInterrupt.sched = s.sched := rfl

@[simp] theorem State.returnInterrupt_cfg : s.returnInterrupt.cfg = s.cfg := rfl
@[simp] theorem State.returnInterrupt_buf : s.returnInterrupt.buf = s.buf := rfl
@[simp] theorem State.returnInterrupt_head : s.returnInterrupt.head = s.head := rfl
@[simp] theorem State.returnInterrupt_tail : s.returnInterrupt.tail = s.tail := rfl
@[simp] theorem State.returnInterrupt_lastError : s.returnInterrupt.lastError = s.lastError := rfl
@[simp] theorem State.returnInterrupt_rxData : s.returnInterrupt.rxData = s.rxData := rfl
@[simp] theorem State.returnInterrupt_txData : s.returnInterrupt.txData = s.txData := rfl
@[simp] theorem State.returnInterrupt_rxc : s.returnInterrupt.rxc = s.rxc := rfl
@[simp] theorem State.returnInterrupt_udre : s.returnInterrupt.udre = s.udre := rfl
@[simp] theorem State.returnInterrupt_rxen : s.returnInterrupt.rxen = s.rxen := rfl
@[simp] theorem State.returnInterrupt_txen : s.returnInterrupt.txen = s.txen := rfl
@[simp] theorem State.returnInterrupt_rxcie : s.returnInterrupt.rxcie = s.rxcie := rfl
@[simp] theorem State.returnInterrupt_frameFmt : s.returnInterrupt.frameFmt = s.frameFmt := rfl
@[simp] theorem State.returnInterrupt_baudH : s.returnInterrupt.baudH = s.baudH := rfl
@[simp] theorem State.returnInterrupt_baudL : s.returnInterrupt.baudL = s.baudL := rfl
@[simp] theorem State.returnInterrupt_gie : s.returnInterrupt.gie = true := rfl
@[simp] theorem State.returnInterrupt_inited : s.returnInterrupt.inited = s.inited := rfl
@[simp] theorem State.returnInterrupt_cphase : s.returnInterrupt.cphase = s.cphase := rfl
@[simp] theorem State.returnInterrupt_hwOverrun : s.returnInterrupt.hwOverrun = s.hwOverrun := rfl
@[simp] theorem State.returnInterrupt_obs : s.returnInterrupt.obs = s.obs := rfl
@[simp] theorem State.returnInterrupt_held : s.returnInterrupt.held = s.held := rfl
@[simp] theorem State.returnInterrupt_returned : s.returnInterrupt.returned = s.returned := rfl
@[simp] theorem State.returnInterrupt_draws : s.returnInterrupt.draws = s.draws := rfl
@[simp] theorem State.returnInterrupt_sched : s.returnInterrupt.sched = s.sched := rfl

@[simp] theorem State.handBack_cfg (r : Ret) : (s.handBack r).cfg = s.cfg := rfl
@[simp] theorem State.handBack_buf (r : Ret) : (s.handBack r).buf = s.buf := rfl
@[simp] theorem State.handBack_head (r : Ret) : (s.handBack r).head = s.head := rfl
@[simp] theorem State.handBack_tail (r : Ret) : (s.handBack r).tail = s.tail := rfl
@[simp] theorem State.handBack_lastError (r : Ret) : (s.handBack r).lastError = s.lastError := rfl
@[simp] theorem State.handBack_rxData (r : Ret) : (s.handBack r).rxData = s.rxData := rfl
@[simp] theorem State.handBack_txData (r : Ret) : (s.handBack r).txData = s.txData := rfl
@[simp] theorem State.handBack_rxc (r : Ret) : (s.handBack r).rxc = s.rxc := rfl
@[simp] theorem State.handBack_udre (r : Ret) : (s.handBack r).udre = s.udre := rfl
@[simp] theorem State.handBack_rxen (r : Ret) : (s.handBack r).rxen = s.rxen := rfl
@[simp] theorem State.handBack_txen (r : Ret) : (s.handBack r).txen = s.txen := rfl
@[simp] theorem State.handBack_rxcie (r : Ret) : (s.handBack r).rxcie = s.rxcie := rfl
@[simp] theorem State.handBack_frameFmt (r : Ret) : (s.handBack r).frameFmt = s.frameFmt := rfl
@[simp] theorem State.handBack_baudH (r : Ret) : (s.handBack r).baudH = s.baudH := rfl
@[simp] theorem State.handBack_baudL (r : Ret) : (s.handBack r).baudL = s.baudL := rfl
@[simp] theorem State.handBack_gie (r : Ret) : (s.handBack r).gie = s.gie := rfl
@[simp] theorem State.handBack_inited (r : Ret) : (s.handBack r).inited = s.inited := rfl
@[simp] theorem State.handBack_cphase (r : Ret) : (s.handBack r).cphase = s.cphase := rfl
@[simp] theorem State.handBack_hwOverrun (r : Ret) : (s.handBack r).hwOverrun = s.hwOverrun := rfl
@[simp] theorem State.handBack_obs (r : Ret) : (s.handBack r).obs = s.obs := rfl
@[simp] theorem State.handBack_held (r : Ret) : (s.handBack r).held = s.held := rfl
@[simp] theorem State.handBack_returned (r : Ret) : (s.handBack r).returned = s.returned ++ [r] := rfl
@[simp] theorem State.handBack_draws (r : Ret) : (s.handBack r).draws = s.draws := rfl
@[simp] theorem State.handBack_sched (r : Ret) : (s.handBack r).sched = s.sched := rfl

@[simp] theorem State.setPhase_cfg (p : CPhase) : (s.setPhase p).cfg = s.cfg := rfl
@[simp] theorem State.setPhase_buf (p : CPhase) : (s.setPhase p).buf = s.buf := rfl
@[simp] theorem State.setPhase_head (p : CPhase) : (s.setPhase p).head = s.head := rfl
@[simp] theorem State.setPhase_tail (p : CPhase) : (s.setPhase p).tail = s.tail := rfl
@[simp] theorem State.setPhase_lastError (p : CPhase) : (s.setPhase p).lastError = s.lastError := rfl
@[simp] theorem State.setPhase_rxData (p : CPhase) : (s.setPhase p).rxData = s.rxData := rfl
@[simp] theorem State.setPhase_txData (p : CPhase) : (s.setPhase p).txData = s.txData := rfl
@[simp] theorem State.setPhase_rxc (p : CPhase) : (s.setPhase p).rxc = s.rxc := rfl
@[simp] theorem State.setPhase_udre (p : CPhase) : (s.setPhase p).udre = s.udre := rfl
@[simp] theorem State.setPhase_rxen (p : CPhase) : (s.setPhase p).rxen = s.rxen := rfl
@[simp] theorem State.setPhase_txen (p : CPhase) : (s.setPhase p).txen = s.txen := rfl
@[simp] theorem State.setPhase_rxcie (p : CPhase) : (s.setPhase p).rxcie = s.rxcie := rfl
@[simp] theorem State.setPhase_frameFmt (p : CPhase) : (s.setPhase p).frameFmt = s.frameFmt := rfl
@[simp] theorem State.setPhase_baudH (p : CPhase) : (s.setPhase p).baudH = s.baudH := rfl
@[simp] theorem State.setPhase_baudL (p : CPhase) : (s.setPhase p).baudL = s.baudL := rfl
@[simp] theorem State.setPhase_gie (p : CPhase) : (s.setPhase p).gie = s.gie := rfl
@[simp] theorem State.setPhase_inited (p : CPhase) : (s.setPhase p).inited = s.inited := rfl
@[simp] theorem State.setPhase_cphase (p : CPhase) : (s.setPhase p).cphase = p := rfl
@[simp] theorem State.setPhase_hwOverrun (p : CPhase) : (s.setPhase p).hwOverrun = s.hwOverrun := rfl
@[simp] theorem State.setPhase_obs (p : CPhase) : (s.setPhase p).obs = s.obs := rfl
@[simp] theorem State.setPhase_held (p : CPhase) : (s.setPhase p).held = s.held := rfl
@[simp] theorem State.setPhase_returned (p : CPhase) : (s.setPhase p).returned = s.returned := rfl
@[simp] theorem State.setPhase_draws (p : CPhase) : (s.setPhase p).draws = s.draws := rfl
@[simp] theorem State.setPhase_sched (p : CPhase) : (s.setPhase p).sched = s.sched := rfl

@[simp] theorem State.advanceTail_cfg : s.advanceTail.cfg = s.cfg := rfl
@[simp] theorem State.advanceTail_buf : s.advanceTail.buf = s.buf := rfl
@[simp] theorem State.advanceTail_head : s.advanceTail.head = s.head := rfl
@[simp] theorem State.advanceTail_tail : s.advanceTail.tail = indexSucc s.cfg s.tail := rfl
@[simp] theorem State.advanceTail_lastError : s.advanceTail.lastError = s.lastError := rfl
@[simp] theorem State.advanceTail_rxData : s.advanceTail.rxData = s.rxData := rfl
@[simp] theorem State.advanceTail_txData : s.advanceTail.txData = s.txData := rfl
@[simp] theorem State.advanceTail_rxc : s.advanceTail.rxc = s.rxc := rfl
@[simp] theorem State.advanceTail_udre : s.advanceTail.udre = s.udre := rfl
@[simp] theorem State.advanceTail_rxen : s.advanceTail.rxen = s.rxen := rfl
@[simp] theorem State.advanceTail_txen : s.advanceTail.txen = s.txen := rfl
@[simp] theorem State.advanceTail_rxcie : s.advanceTail.rxcie = s.rxcie := rfl
@[simp] theorem State.advanceTail_frameFmt : s.advanceTail.frameFmt = s.frameFmt := rfl
@[simp] theorem State.advanceTail_baudH : s.advanceTail.baudH = s.baudH := rfl
@[simp] theorem State.advanceTail_baudL : s.advanceTail.baudL = s.baudL := rfl
@[simp] theorem State.advanceTail_gie : s.advanceTail.gie = s.gie := rfl
@[simp] theorem State.advanceTail_inited : s.advanceTail.inited = s.inited := rfl
@[simp] theorem State.advanceTail_cphase : s.advanceTail.cphase = s.cphase := rfl
@[simp] theorem State.advanceTail_hwOverrun : s.advanceTail.hwOverrun = s.hwOverrun := rfl
@[simp] theorem State.advanceTail_obs : s.advanceTail.obs = s.obs := rfl
@[simp] theorem State.advanceTail_held : s.advanceTail.held = s.held := rfl
@[simp] theorem State.advanceTail_returned : s.advanceTail.returned = s.returned := rfl
@[simp] theorem State.advanceTail_draws : s.advanceTail.draws = s.draws := rfl
@[simp] theorem State.advanceTail_sched : s.advanceTail.sched = s.sched := rfl

@[simp] theorem State.deliver_cfg (v : Byte) : (s.deliver v).cfg = s.cfg := rfl
@[simp] theorem State.deliver_buf (v : Byte) : (s.deliver v).buf = s.buf := rfl
@[simp] theorem State.deliver_head (v : Byte) : (s.deliver v).head = s.head := rfl
@[simp] theorem State.deliver_tail (v : Byte) : (s.deliver v).tail = s.tail := rfl
@[simp] theorem State.deliver_lastError (v : Byte) : (s.deliver v).lastError = s.lastError := rfl
@[simp] theorem State.deliver_rxData (v : Byte) : (s.deliver v).rxData = s.rxData := rfl
@[simp] theorem State.deliver_txData (v : Byte) : (s.deliver v).txData = s.txData := rfl
@[simp] theorem State.deliver_rxc (v : Byte) : (s.deliver v).rxc = s.rxc := rfl
@[simp] theorem State.deliver_udre (v : Byte) : (s.deliver v).udre = s.udre := rfl
@[simp] theorem State.deliver_rxen (v : Byte) : (s.deliver v).rxen = s.rxen := rfl
@[simp] theorem State.deliver_txen (v : Byte) : (s.deliver v).txen = s.txen := rfl
@[simp] theorem State.deliver_rxcie (v : Byte) : (s.deliver v).rxcie = s.rxcie := rfl
@[simp] theorem State.deliver_frameFmt (v : Byte) : (s.deliver v).frameFmt = s.frameFmt := rfl
@[simp] theorem State.deliver_baudH (v : Byte) : (s.deliver v).baudH = s.baudH := rfl
@[simp] theorem State.deliver_baudL (v : Byte) : (s.deliver v).baudL = s.baudL := rfl
@[simp] theorem State.deliver_gie (v : Byte) : (s.deliver v).gie = s.gie := rfl
@[simp] theorem State.deliver_inited (v : Byte) : (s.deliver v).inited = s.inited := rfl
@[simp] theorem State.deliver_cphase (v : Byte) : (s.deliver v).cphase = s.cphase := rfl
@[simp] theorem State.deliver_hwOverrun (v : Byte) : (s.deliver v).hwOverrun = s.hwOverrun := rfl
@[simp] theorem State.deliver_obs (v : Byte) :
    (s.deliver v).obs = { s.obs with delivered := s.obs.delivered ++ [v] } := rfl
@[simp] theorem State.deliver_held (v : Byte) : (s.deliver v).held = s.held := rfl
@[simp] theorem State.deliver_returned (v : Byte) : (s.deliver v).returned = s.returned := rfl
@[simp] theorem State.deliver_draws (v : Byte) : (s.deliver v).draws = s.draws := rfl
@[simp] theorem State.deliver_sched (v : Byte) : (s.deliver v).sched = s.sched := rfl

@[simp] theorem State.hold_cfg (b : Byte) : (s.hold b).cfg = s.cfg := rfl
@[simp] theorem State.hold_buf (b : Byte) : (s.hold b).buf = s.buf := rfl
@[simp] theorem State.hold_head (b : Byte) : (s.hold b).head = s.head := rfl
@[simp] theorem State.hold_tail (b : Byte) : (s.hold b).tail = s.tail := rfl
@[simp] theorem State.hold_lastError (b : Byte) : (s.hold b).lastError = s.lastError := rfl
@[simp] theorem State.hold_rxData (b : Byte) : (s.hold b).rxData = s.rxData := rfl
@[simp] theorem State.hold_txData (b : Byte) : (s.hold b).txData = s.txData := rfl
@[simp] theorem State.hold_rxc (b : Byte) : (s.hold b).rxc = s.rxc := rfl
@[simp] theorem State.hold_udre (b : Byte) : (s.hold b).udre = s.udre := rfl
@[simp] theorem State.hold_rxen (b : Byte) : (s.hold b).rxen = s.rxen := rfl
@[simp] theorem State.hold_txen (b : Byte) : (s.hold b).txen = s.txen := rfl
@[simp] theorem State.hold_rxcie (b : Byte) : (s.hold b).rxcie = s.rxcie := rfl
@[simp] theorem State.hold_frameFmt (b : Byte) : (s.hold b).frameFmt = s.frameFmt := rfl
@[simp] theorem State.hold_baudH (b : Byte) : (s.hold b).baudH = s.baudH := rfl
@[simp] theorem State.hold_baudL (b : Byte) : (s.hold b).baudL = s.baudL := rfl
@[simp] theorem State.hold_gie (b : Byte) : (s.hold b).gie = s.gie := rfl
@[simp] theorem State.hold_inited (b : Byte) : (s.hold b).inited = s.inited := rfl
@[simp] theorem State.hold_cphase (b : Byte) : (s.hold b).cphase = s.cphase := rfl
@[simp] theorem State.hold_hwOverrun (b : Byte) : (s.hold b).hwOverrun = s.hwOverrun := rfl
@[simp] theorem State.hold_obs (b : Byte) : (s.hold b).obs = s.obs := rfl
@[simp] theorem State.hold_held (b : Byte) : (s.hold b).held = some b := rfl
@[simp] theorem State.hold_returned (b : Byte) : (s.hold b).returned = s.returned := rfl
@[simp] theorem State.hold_draws (b : Byte) : (s.hold b).draws = s.draws := rfl
@[simp] theorem State.hold_sched (b : Byte) : (s.hold b).sched = s.sched := rfl

@[simp] theorem State.release_cfg : s.release.cfg = s.cfg := rfl
@[simp] theorem State.release_buf : s.release.buf = s.buf := rfl
@[simp] theorem State.release_head : s.release.head = s.head := rfl
@[simp] theorem State.release_tail : s.release.tail = s.tail := rfl
@[simp] theorem State.release_lastError : s.release.lastError = s.lastError := rfl
@[simp] theorem State.release_rxData : s.release.rxData = s.rxData := rfl
@[simp] theorem State.release_txData : s.release.txData = s.txData := rfl
@[simp] theorem State.release_rxc : s.release.rxc = s.rxc := rfl
@[simp] theorem State.release_udre : s.release.udre = s.udre := rfl
@[simp] theorem State.release_rxen : s.release.rxen = s.rxen := rfl
@[simp] theorem State.release_txen : s.release.txen = s.txen := rfl
@[simp] theorem State.release_rxcie : s.release.rxcie = s.rxcie := rfl
@[simp] theorem State.release_frameFmt : s.release.frameFmt = s.frameFmt := rfl
@[simp] theorem State.release_baudH : s.release.baudH = s.baudH := rfl
@[simp] theorem State.release_baudL : s.release.baudL = s.baudL := rfl
@[simp] theorem State.release_gie : s.release.gie = s.gie := rfl
@[simp] theorem State.release_inited : s.release.inited = s.inited := rfl
@[simp] theorem State.release_cphase : s.release.cphase = s.cphase := rfl
@[simp] theorem State.release_hwOverrun : s.release.hwOverrun = s.hwOverrun := rfl
@[simp] theorem State.release_obs : s.release.obs = s.obs := rfl
@[simp] theorem State.release_held : s.release.held = none := rfl
@[simp] theorem State.release_returned : s.release.returned = s.returned := rfl
@[simp] theorem State.release_draws : s.release.draws = s.draws := rfl
@[simp] theorem State.release_sched : s.release.sched = s.sched := rfl

@[simp] theorem State.drain_cfg : s.drain.cfg = s.cfg := rfl
@[simp] theorem State.drain_buf : s.drain.buf = s.buf := rfl
@[simp] theorem State.drain_head : s.drain.head = s.head := rfl
@[simp] theorem State.drain_tail : s.drain.tail = s.tail := rfl
@[simp] theorem State.drain_lastError : s.drain.lastError = s.lastError := rfl
@[simp] theorem State.drain_rxData : s.drain.rxData = s.rxData := rfl
@[simp] theorem State.drain_txData : s.drain.txData = s.txData := rfl
@[simp] theorem State.drain_rxc : s.drain.rxc = s.rxc := rfl
@[simp] theorem State.drain_udre : s.drain.udre = true := rfl
@[simp] theorem State.drain_rxen : s.drain.rxen = s.rxen := rfl
@[simp] theorem State.drain_txen : s.drain.txen = s.txen := rfl
@[simp] theorem State.drain_rxcie : s.drain.rxcie = s.rxcie := rfl
@[simp] theorem State.drain_frameFmt : s.drain.frameFmt = s.frameFmt := rfl
@[simp] theorem State.drain_baudH : s.drain.baudH = s.baudH := rfl
@[simp] theorem State.drain_baudL : s.drain.baudL = s.baudL := rfl
@[simp] theorem State.drain_gie : s.drain.gie = s.gie := rfl
@[simp] theorem State.drain_inited : s.drain.inited = s.inited := rfl
@[simp] theorem State.drain_cphase : s.drain.cphase = s.cphase := rfl
@[simp] theorem State.drain_hwOverrun : s.drain.hwOverrun = s.hwOverrun := rfl
@[simp] theorem State.drain_obs : s.drain.obs = { s.obs with wire := s.obs.wire ++ [s.txData] } := rfl
@[simp] theorem State.drain_held : s.drain.held = s.held := rfl
@[simp] theorem State.drain_returned : s.drain.returned = s.returned := rfl
@[simp] theorem State.drain_draws : s.drain.draws = s.draws := rfl
@[simp] theorem State.drain_sched : s.drain.sched = s.sched := rfl

@[simp] theorem State.latch_cfg (b : Byte) : (s.latch b).cfg = s.cfg := rfl
@[simp] theorem State.latch_buf (b : Byte) : (s.latch b).buf = s.buf := rfl
@[simp] theorem State.latch_head (b : Byte) : (s.latch b).head = s.head := rfl
@[simp] theorem State.latch_tail (b : Byte) : (s.latch b).tail = s.tail := rfl
@[simp] theorem State.latch_lastError (b : Byte) : (s.latch b).lastError = s.lastError := rfl
@[simp] theorem State.latch_rxData (b : Byte) : (s.latch b).rxData = b := rfl
@[simp] theorem State.latch_txData (b : Byte) : (s.latch b).txData = s.txData := rfl
@[simp] theorem State.latch_rxc (b : Byte) : (s.latch b).rxc = true := rfl
@[simp] theorem State.latch_udre (b : Byte) : (s.latch b).udre = s.udre := rfl
@[simp] theorem State.latch_rxen (b : Byte) : (s.latch b).rxen = s.rxen := rfl
@[simp] theorem State.latch_txen (b : Byte) : (s.latch b).txen = s.txen := rfl
@[simp] theorem State.latch_rxcie (b : Byte) : (s.latch b).rxcie = s.rxcie := rfl
@[simp] theorem State.latch_frameFmt (b : Byte) : (s.latch b).frameFmt = s.frameFmt := rfl
@[simp] theorem State.latch_baudH (b : Byte) : (s.latch b).baudH = s.baudH := rfl
@[simp] theorem State.latch_baudL (b : Byte) : (s.latch b).baudL = s.baudL := rfl
@[simp] theorem State.latch_gie (b : Byte) : (s.latch b).gie = s.gie := rfl
@[simp] theorem State.latch_inited (b : Byte) : (s.latch b).inited = s.inited := rfl
@[simp] theorem State.latch_cphase (b : Byte) : (s.latch b).cphase = s.cphase := rfl
@[simp] theorem State.latch_hwOverrun (b : Byte) : (s.latch b).hwOverrun = s.hwOverrun := rfl
@[simp] theorem State.latch_obs (b : Byte) :
    (s.latch b).obs = { s.obs with arrived := s.obs.arrived ++ [b], latched := s.obs.latched ++ [b] } := rfl
@[simp] theorem State.latch_held (b : Byte) : (s.latch b).held = s.held := rfl
@[simp] theorem State.latch_returned (b : Byte) : (s.latch b).returned = s.returned := rfl
@[simp] theorem State.latch_draws (b : Byte) : (s.latch b).draws = s.draws := rfl
@[simp] theorem State.latch_sched (b : Byte) : (s.latch b).sched = s.sched := rfl

@[simp] theorem State.loseByte_cfg (b : Byte) : (s.loseByte b).cfg = s.cfg := rfl
@[simp] theorem State.loseByte_buf (b : Byte) : (s.loseByte b).buf = s.buf := rfl
@[simp] theorem State.loseByte_head (b : Byte) : (s.loseByte b).head = s.head := rfl
@[simp] theorem State.loseByte_tail (b : Byte) : (s.loseByte b).tail = s.tail := rfl
@[simp] theorem State.loseByte_lastError (b : Byte) : (s.loseByte b).lastError = s.lastError := rfl
@[simp] theorem State.loseByte_rxData (b : Byte) : (s.loseByte b).rxData = s.rxData := rfl
@[simp] theorem State.loseByte_txData (b : Byte) : (s.loseByte b).txData = s.txData := rfl
@[simp] theorem State.loseByte_rxc (b : Byte) : (s.loseByte b).rxc = s.rxc := rfl
@[simp] theorem State.loseByte_udre (b : Byte) : (s.loseByte b).udre = s.udre := rfl
@[simp] theorem State.loseByte_rxen (b : Byte) : (s.loseByte b).rxen = s.rxen := rfl
@[simp] theorem State.loseByte_txen (b : Byte) : (s.loseByte b).txen = s.txen := rfl
@[simp] theorem State.loseByte_rxcie (b : Byte) : (s.loseByte b).rxcie = s.rxcie := rfl
@[simp] theorem State.loseByte_frameFmt (b : Byte) : (s.loseByte b).frameFmt = s.frameFmt := rfl
@[simp] theorem State.loseByte_baudH (b : Byte) : (s.loseByte b).baudH = s.baudH := rfl
@[simp] theorem State.loseByte_baudL (b : Byte) : (s.loseByte b).baudL = s.baudL := rfl
@[simp] theorem State.loseByte_gie (b : Byte) : (s.loseByte b).gie = s.gie := rfl
@[simp] theorem State.loseByte_inited (b : Byte) : (s.loseByte b).inited = s.inited := rfl
@[simp] theorem State.loseByte_cphase (b : Byte) : (s.loseByte b).cphase = s.cphase := rfl
@[simp] theorem State.loseByte_hwOverrun (b : Byte) : (s.loseByte b).hwOverrun = true := rfl
@[simp] theorem State.loseByte_obs (b : Byte) :
    (s.loseByte b).obs = { s.obs with arrived := s.obs.arrived ++ [b] } := rfl
@[simp] theorem State.loseByte_held (b : Byte) : (s.loseByte b).held = s.held := rfl
@[simp] theorem State.loseByte_returned (b : Byte) : (s.loseByte b).returned = s.returned := rfl
@[simp] theorem State.loseByte_draws (b : Byte) : (s.loseByte b).draws = s.draws := rfl
@[simp] theorem State.loseByte_sched (b : Byte) : (s.loseByte b).sched = s.sched := rfl

@[simp] theorem State.configure_cfg (rx tx ie : Bool) : (s.configure rx tx ie).cfg = s.cfg := rfl
@[simp] theorem State.configure_buf (rx tx ie : Bool) : (s.configure rx tx ie).buf = s.buf := rfl
@[simp] theorem State.configure_head (rx tx ie : Bool) : (s.configure rx tx ie).head = s.head := rfl
@[simp] theorem State.configure_tail (rx tx ie : Bool) : (s.configure rx tx ie).tail = s.tail := rfl
@[simp] theorem State.configure_lastError (rx tx ie : Bool) :
    (s.configure rx tx ie).lastError = s.lastError := rfl
@[simp] theorem State.configure_rxData (rx tx ie : Bool) : (s.configure rx tx ie).rxData = s.rxData := rfl
@[simp] theorem State.configure_txData (rx tx ie : Bool) : (s.configure rx tx ie).txData = s.txData := rfl
@[simp] theorem State.configure_rxc (rx tx ie : Bool) : (s.configure rx tx ie).rxc = s.rxc := rfl
@[simp] theorem State.configure_udre (rx tx ie : Bool) : (s.configure rx tx ie).udre = s.udre := rfl
@[simp] theorem State.configure_rxen (rx tx ie : Bool) : (s.configure rx tx ie).rxen = rx := rfl
@[simp] theorem State.configure_txen (rx tx ie : Bool) : (s.configure rx tx ie).txen = tx := rfl
@[simp] theorem State.configure_rxcie (rx tx ie : Bool) : (s.configure rx tx ie).rxcie = ie := rfl
@[simp] theorem State.configure_frameFmt (rx tx ie : Bool) : (s.configure rx tx ie).frameFmt = .f8n1 := rfl
@[simp] theorem State.configure_baudH (rx tx ie : Bool) :
    (s.configure rx tx ie).baudH = s.cfg.baudDiv.extractLsb' 8 4 := rfl
@[simp] theorem State.configure_baudL (rx tx ie : Bool) :
    (s.configure rx tx ie).baudL = s.cfg.baudDiv.extractLsb' 0 8 := rfl
@[simp] theorem State.configure_gie (rx tx ie : Bool) : (s.configure rx tx ie).gie = s.gie := rfl
@[simp] theorem State.configure_inited (rx tx ie : Bool) : (s.configure rx tx ie).inited = s.inited := rfl
@[simp] theorem State.configure_cphase (rx tx ie : Bool) : (s.configure rx tx ie).cphase = s.cphase := rfl
@[simp] theorem State.configure_hwOverrun (rx tx ie : Bool) :
    (s.configure rx tx ie).hwOverrun = s.hwOverrun := rfl
@[simp] theorem State.configure_obs (rx tx ie : Bool) : (s.configure rx tx ie).obs = s.obs := rfl
@[simp] theorem State.configure_held (rx tx ie : Bool) : (s.configure rx tx ie).held = s.held := rfl
@[simp] theorem State.configure_returned (rx tx ie : Bool) :
    (s.configure rx tx ie).returned = s.returned := rfl
@[simp] theorem State.configure_draws (rx tx ie : Bool) : (s.configure rx tx ie).draws = s.draws := rfl
@[simp] theorem State.configure_sched (rx tx ie : Bool) : (s.configure rx tx ie).sched = s.sched := rfl

@[simp] theorem State.markInited_cfg : s.markInited.cfg = s.cfg := rfl
@[simp] theorem State.markInited_buf : s.markInited.buf = s.buf := rfl
@[simp] theorem State.markInited_head : s.markInited.head = s.head := rfl
@[simp] theorem State.markInited_tail : s.markInited.tail = s.tail := rfl
@[simp] theorem State.markInited_lastError : s.markInited.lastError = s.lastError := rfl
@[simp] theorem State.markInited_rxData : s.markInited.rxData = s.rxData := rfl
@[simp] theorem State.markInited_txData : s.markInited.txData = s.txData := rfl
@[simp] theorem State.markInited_rxc : s.markInited.rxc = s.rxc := rfl
@[simp] theorem State.markInited_udre : s.markInited.udre = s.udre := rfl
@[simp] theorem State.markInited_rxen : s.markInited.rxen = s.rxen := rfl
@[simp] theorem State.markInited_txen : s.markInited.txen = s.txen := rfl
@[simp] theorem State.markInited_rxcie : s.markInited.rxcie = s.rxcie := rfl
@[simp] theorem State.markInited_frameFmt : s.markInited.frameFmt = s.frameFmt := rfl
@[simp] theorem State.markInited_baudH : s.markInited.baudH = s.baudH := rfl
@[simp] theorem State.markInited_baudL : s.markInited.baudL = s.baudL := rfl
@[simp] theorem State.markInited_gie : s.markInited.gie = s.gie := rfl
@[simp] theorem State.markInited_inited : s.markInited.inited = true := rfl
@[simp] theorem State.markInited_cphase : s.markInited.cphase = s.cphase := rfl
@[simp] theorem State.markInited_hwOverrun : s.markInited.hwOverrun = s.hwOverrun := rfl
@[simp] theorem State.markInited_obs : s.markInited.obs = s.obs := rfl
@[simp] theorem State.markInited_held : s.markInited.held = s.held := rfl
@[simp] theorem State.markInited_returned : s.markInited.returned = s.returned := rfl
@[simp] theorem State.markInited_draws : s.markInited.draws = s.draws := rfl
@[simp] theorem State.markInited_sched : s.markInited.sched = s.sched := rfl

@[simp] theorem State.powerOn_cfg : s.powerOn.cfg = s.cfg := rfl
@[simp] theorem State.powerOn_buf : s.powerOn.buf = [] := rfl
@[simp] theorem State.powerOn_head : s.powerOn.head = 0 := rfl
@[simp] theorem State.powerOn_tail : s.powerOn.tail = 0 := rfl
@[simp] theorem State.powerOn_lastError : s.powerOn.lastError = s.cfg.errNone := rfl
@[simp] theorem State.powerOn_rxData : s.powerOn.rxData = Config.freeByte s.draws := rfl
@[simp] theorem State.powerOn_txData : s.powerOn.txData = Config.freeByte (s.draws + 1) := rfl
@[simp] theorem State.powerOn_rxc : s.powerOn.rxc = false := rfl
@[simp] theorem State.powerOn_udre : s.powerOn.udre = true := rfl
@[simp] theorem State.powerOn_rxen : s.powerOn.rxen = false := rfl
@[simp] theorem State.powerOn_txen : s.powerOn.txen = false := rfl
@[simp] theorem State.powerOn_rxcie : s.powerOn.rxcie = false := rfl
@[simp] theorem State.powerOn_frameFmt : s.powerOn.frameFmt = .unset := rfl
@[simp] theorem State.powerOn_baudH : s.powerOn.baudH = (Config.freeByte (s.draws + 2)).extractLsb' 0 4 := rfl
@[simp] theorem State.powerOn_baudL : s.powerOn.baudL = Config.freeByte (s.draws + 3) := rfl
@[simp] theorem State.powerOn_gie : s.powerOn.gie = false := rfl
@[simp] theorem State.powerOn_inited : s.powerOn.inited = false := rfl
@[simp] theorem State.powerOn_cphase : s.powerOn.cphase = .idle := rfl
@[simp] theorem State.powerOn_hwOverrun : s.powerOn.hwOverrun = false := rfl
@[simp] theorem State.powerOn_obs : s.powerOn.obs = {} := rfl
@[simp] theorem State.powerOn_held : s.powerOn.held = none := rfl
@[simp] theorem State.powerOn_returned : s.powerOn.returned = [] := rfl
@[simp] theorem State.powerOn_draws : s.powerOn.draws = s.draws + 4 := rfl
@[simp] theorem State.powerOn_sched : s.powerOn.sched = s.sched := rfl

end Sys2Proof.Machine
end

