-- ==== Sys2Proof/Laws/Exec.lean ====
section
/-! SUPPORT. Everything an operation can do when it answers a next state: one inversion lemma for each
meaning. -/

namespace Sys2Proof.Machine

variable {s t : State}

/-- The state after the handler found the ring full (R105). -/
theorem push_full {s : State} (h : s.isFull = true) (b : Byte) : s.push b = some (s.raiseOverflow b) := by
  simp [State.push, h]

/-- The state after the handler found a free slot (R106). -/
theorem push_free {s : State} (h : s.isFull = false) (hin : s.candidateHead.toNat < s.cfg.N) (b : Byte) :
    s.push b =
      some ((s.setSlot s.candidateHead.toNat b).publishHead s.candidateHead b) := by
  simp [State.push, h, State.storeSlot, hin]

theorem exec_reset_next : exec .reset s = .next t ↔ t = s.powerOn := by
  simp [exec, execReset, eq_comm]

theorem runInit_next {f : State → State} :
    runInit s f = .next t ↔ s.inited = false ∧ s.cphase = .idle ∧ t = (f s).markInited := by
  unfold runInit
  cases s.inited <;> by_cases h : s.cphase = .idle <;> simp [h, eq_comm]

theorem exec_initRxIrq_next : exec .initRxIrq s = .next t ↔
    s.inited = false ∧ s.cphase = .idle ∧ t = (s.configure true false true).unmask.markInited := by
  simp only [exec, execInitRxIrq, runInit_next]

theorem exec_initTxOnly_next : exec .initTxOnly s = .next t ↔
    s.inited = false ∧ s.cphase = .idle ∧ t = (s.configure false true false).markInited := by
  simp only [exec, execInitTxOnly, runInit_next]

theorem exec_initRxPolled_next : exec .initRxPolled s = .next t ↔
    s.inited = false ∧ s.cphase = .idle ∧ t = (s.configure true false false).markInited := by
  simp only [exec, execInitRxPolled, runInit_next]

theorem exec_initTxrxPolled_next : exec .initTxrxPolled s = .next t ↔
    s.inited = false ∧ s.cphase = .idle ∧ t = (s.configure true true false).markInited := by
  simp only [exec, execInitTxrxPolled, runInit_next]

theorem exec_rxArrive_next {b : Byte} : exec (.rxArrive b) s = .next t ↔
    (s.rxen = false ∧ t = s) ∨ (s.rxen = true ∧ s.rxc = false ∧ t = s.latch b) ∨
      (s.rxen = true ∧ s.rxc = true ∧ t = s.loseByte b) := by
  simp only [exec, execRxArrive]
  cases s.rxen <;> cases s.rxc <;> simp [eq_comm]

theorem rxcTaken_iff : s.rxcTaken = true ↔ s.rxc = true ∧ s.rxcie = true ∧ s.gie = true := by
  simp [State.rxcTaken, State.irqRxc, and_assoc]

/-- ISR_RXC (R103): it was enabled, and either the ring was full and the byte is dropped, or the byte is
stored in the next slot and `head` published. -/
theorem exec_isrRxc_next : exec .isrRxc s = .next t ↔
    (s.rxc = true ∧ s.rxcie = true ∧ s.gie = true) ∧
      ((s.isFull = true ∧
          t = (s.enterInterrupt.afterDataRead.raiseOverflow s.rxData).returnInterrupt) ∨
        (s.isFull = false ∧ s.candidateHead.toNat < s.cfg.N ∧
          t = ((s.enterInterrupt.afterDataRead.setSlot s.candidateHead.toNat s.rxData).publishHead
            s.candidateHead s.rxData).returnInterrupt)) := by
  have hfull : s.enterInterrupt.afterDataRead.isFull = s.isFull := rfl
  have hcand : s.enterInterrupt.afterDataRead.candidateHead = s.candidateHead := rfl
  simp only [exec, execIsrRxc, ← rxcTaken_iff]
  cases s.rxcTaken
  · simp
  · cases hf : s.isFull
    · by_cases hin : s.candidateHead.toNat < s.cfg.N
      · simp [push_free (hfull.trans hf) (by rw [hcand]; simpa using hin), hin, hcand, eq_comm]
      · simp [State.push, hfull, hf, State.storeSlot, hcand, hin]
    · simp [push_full (hfull.trans hf), eq_comm]

theorem exec_isrTxc_next : exec .isrTxc s = .next t ↔ t = s := by
  have h : s.gie = true → s.enterInterrupt.returnInterrupt = s := by
    intro h; cases s; simp only [State.enterInterrupt, State.returnInterrupt] at *; simp [h]
  simp only [exec, execIsrTxc]
  cases hg : s.gie <;> simp [h, hg, eq_comm]

/-- GB_CHECK (R116): the window leaves no trace, so either the sentinel was handed back or the call went
on. -/
theorem exec_gbCheck_next : exec .gbCheck s = .next t ↔
    s.inited = true ∧ s.cphase = .idle ∧
      ((s.isEmpty = true ∧ t = s.handBack (.getByte s.cfg.emptySentinel)) ∨
        (s.isEmpty = false ∧ t = s.setPhase .nonempty)) := by
  have hE : s.enterWindow.isEmpty = s.isEmpty := rfl
  have hL : s.enterWindow.leaveWindow s.gie = s := rfl
  simp only [exec, execGbCheck, hE, hL]
  cases s.inited <;> by_cases h : s.cphase = .idle <;> cases s.isEmpty <;> simp [h, eq_comm]

theorem exec_gbAdvance_next : exec .gbAdvance s = .next t ↔
    s.cphase = .nonempty ∧ t = s.advanceTail.setPhase .advanced := by
  simp only [exec, execGbAdvance]
  by_cases h : s.cphase = .nonempty <;> simp [h, eq_comm]

theorem exec_gbRead_next : exec .gbRead s = .next t ↔
    s.cphase = .advanced ∧ s.tail.toNat < s.cfg.N ∧
      t = ((s.setPhase .idle).deliver (s.buf.read s.tail.toNat)).handBack
        (.getByte (s.buf.read s.tail.toNat)) := by
  simp only [exec, execGbRead, State.slot?]
  by_cases h : s.cphase = .advanced <;> by_cases h' : s.tail.toNat < s.cfg.N <;> simp [h, h', eq_comm]

theorem exec_getError_next : exec .getError s = .next t ↔
    s.cphase = .idle ∧ t = s.handBack (.getError s.lastError) := by
  simp only [exec, execGetError]
  by_cases h : s.cphase = .idle <;> simp [h, eq_comm]

/-- SEND_BYTE (R151): the call was allowed, and it either waits or writes. -/
theorem exec_sendByte_next {b : Byte} : exec (.sendByte b) s = .next t ↔
    (s.inited = true ∧ s.txen = true ∧ s.cphase = .idle) ∧
      ((s.udre = false ∧ t = s.hold b) ∨
        (s.udre = true ∧ t = (s.writeData b).release)) := by
  simp only [exec, execSendByte]
  cases s.inited <;> cases s.txen <;> by_cases h : s.cphase = .idle <;> cases s.udre <;>
    simp [h, eq_comm]

theorem exec_txDrain_next : exec .txDrain s = .next t ↔
    ((s.txen = true ∧ s.udre = false) ∧ t = s.drain) ∨
      (¬(s.txen = true ∧ s.udre = false) ∧ t = s) := by
  simp only [exec, execTxDrain, State.txPending]
  by_cases h : s.txen = true <;> by_cases h' : s.udre = true <;> simp [h, h', eq_comm]

end Sys2Proof.Machine
end

