-- ==== Sys2Proof/Laws/Step.lean ====
section
/-! SUPPORT. What one step can be: nothing, or one operation of the schedule or of the waiting consumer run
by `exec`. -/

namespace Sys2Proof.Machine

/-- The word `takeOther` finds lies in the schedule and belongs to another agent. -/
theorem takeOther_spec {ws ws' : List Cmd} {i : Instr} (h : takeOther ws = some (i, ws')) :
    agentOf i ≠ .consumer ∧ ∃ pre w post, ws = pre ++ w :: post ∧ ws' = pre ++ post ∧ decode w = .ok i := by
  induction ws generalizing ws' with
  | nil => simp [takeOther] at h
  | cons w ws ih =>
    simp only [takeOther] at h
    split at h
    · next j hj =>
      simp only [Option.some.injEq, Prod.mk.injEq] at h
      obtain ⟨rfl, rfl⟩ := h
      simp only [otherAgents] at hj
      split at hj
      · next k hk =>
        split at hj
        · cases hj
        · next hne => cases hj; exact ⟨hne, [], w, ws, rfl, rfl, hk⟩
      · cases hj
    · simp only [Option.map_eq_some_iff, Prod.exists, Prod.mk.injEq] at h
      obtain ⟨j, vs, hvs, rfl, rfl⟩ := h
      obtain ⟨ha, pre, w', post, rfl, rfl, hd⟩ := ih hvs
      exact ⟨ha, w :: pre, w', post, rfl, rfl, hd⟩

theorem headOther_spec {ws ws' : List Cmd} {i : Instr} (h : headOther ws = some (i, ws')) :
    agentOf i ≠ .consumer ∧ ∃ w, ws = w :: ws' ∧ decode w = .ok i := by
  cases ws with
  | nil => simp [headOther] at h
  | cons w ws =>
    simp only [headOther, Option.map_eq_some_iff, Prod.mk.injEq] at h
    obtain ⟨j, hj, rfl, rfl⟩ := h
    simp only [otherAgents] at hj
    split at hj
    · next k hk =>
      split at hj
      · cases hj
      · next hne => cases hj; exact ⟨hne, w, rfl, hk⟩
    · cases hj

/-- Everything the fetch can choose to run: with no call waiting, the head of the schedule; with a call
waiting, a word of another agent, or the waiting call itself. -/
theorem fetch_run {s s' : State} {i : Instr} (h : s.fetch = .run i s') :
    s.cfg.wf = true ∧
      ((s.held = none ∧ ∃ w ws, s.sched = w :: ws ∧ decode w = .ok i ∧ s' = { s with sched := ws }) ∨
        (∃ b, s.held = some b ∧ i = .sendByte b ∧ s' = s) ∨
        (s.held.isSome = true ∧ agentOf i ≠ .consumer ∧
          ∃ pre w post, s.sched = pre ++ w :: post ∧ decode w = .ok i ∧
            s' = { s with sched := pre ++ post })) := by
  unfold State.fetch at h
  split at h
  · next hwf =>
    refine ⟨hwf, ?_⟩
    split at h
    · next hh =>
      unfold State.fetchWord at h
      split at h
      · cases h
      · next w ws hs =>
        split at h
        · next j hj => cases h; exact .inl ⟨hh, w, ws, hs, hj, rfl⟩
        · cases h
    · next b hb =>
      simp only [State.fetchHeld] at h
      split at h
      · next j ws hj =>
        cases h
        refine .inr (.inr ⟨by simp [hb], ?_⟩)
        split at hj
        · obtain ⟨ha, w, hw, hd⟩ := headOther_spec hj
          exact ⟨ha, [], w, ws, hw, hd, rfl⟩
        · obtain ⟨ha, pre, w, post, hw, rfl, hd⟩ := takeOther_spec hj
          exact ⟨ha, pre, w, post, hw, hd, rfl⟩
      · cases h; exact .inr (.inl ⟨b, hb, rfl, rfl⟩)
  · cases h

/-- Everything a step can be. -/
theorem step_next {s t : State} (h : step s = .next t) :
    (s.fetch = .idle ∧ t = s) ∨ ∃ i s', s.fetch = .run i s' ∧ exec i s' = .next t := by
  unfold step at h
  split at h
  · next hf => cases h; exact .inl ⟨hf, rfl⟩
  · cases h
  · next i s' hf => exact .inr ⟨i, s', hf, h⟩

/-- A predicate that every operation keeps, and that does not look at the schedule, is kept by every
step. -/
theorem step_keeps {P : State → Prop} (hsched : ∀ s ws, P s → P { s with sched := ws })
    (hexec : ∀ i s t, P s → exec i s = .next t → P t) {s t : State} (hs : P s)
    (h : step s = .next t) : P t := by
  rcases step_next h with ⟨-, rfl⟩ | ⟨i, s', hf, he⟩
  · exact hs
  · rcases (fetch_run hf).2 with ⟨-, w, ws, -, -, rfl⟩ | ⟨b, -, -, rfl⟩ | ⟨-, -, pre, w, post, -, -, rfl⟩
    · exact hexec i _ t (hsched s _ hs) he
    · exact hexec i _ t hs he
    · exact hexec i _ t (hsched s _ hs) he

theorem run_zero (s : State) : Host.Core.run core 0 s = .next s := rfl

theorem run_next {s s' : State} (n : Nat) (h : step s = .next s') :
    Host.Core.run core (n + 1) s = Host.Core.run core n s' := by
  have h' : core.step s = .next s' := h
  simp only [Host.Core.run, h']

theorem run_fault {s : State} {f : Fault} (n : Nat) (h : step s = .fault f) :
    Host.Core.run core (n + 1) s = .fault f := by
  have h' : core.step s = .fault f := h
  simp only [Host.Core.run, h']

theorem run_refused {s : State} {r : Refusal} (n : Nat) (h : step s = .refused r) :
    Host.Core.run core (n + 1) s = .refused r := by
  have h' : core.step s = .refused r := h
  simp only [Host.Core.run, h']

/-- What holds of a state and is kept by every step holds after every run from it. -/
theorem run_keeps {P : State → Prop} (hstep : ∀ s t, P s → step s = .next t → P t) {s t : State} (n : Nat)
    (hs : P s) (h : Host.Core.run core n s = .next t) : P t := by
  induction n generalizing s with
  | zero => cases h; exact hs
  | succ n ih =>
    cases he : step s with
    | next s' => exact ih (hstep _ _ hs he) (run_next n he ▸ h)
    | fault f => rw [run_fault n he] at h; cases h
    | refused r => rw [run_refused n he] at h; cases h

end Sys2Proof.Machine
end

