-- ==== Sys2Proof/Laws/Fairness.lean ====
section
/-! SUPPORT. Progress under weak fairness (rules R167, R206), packaged once. -/

namespace Sys2Proof.Machine

/-- Every step of a run that is not idle is one operation, run in the state offered up to its schedule. -/
theorem Run.step_cases {r : Run} (hv : r.valid) (n : Nat) :
    ((∀ i, ¬ r.takes i n) ∧ ∃ ws, r.state (n + 1) = { r.state n with sched := ws }) ∨
      ∃ i ws, r.takes i n ∧ exec i { r.state n with sched := ws } = .next (r.state (n + 1)) := by
  rcases step_next (hv n) with ⟨hidle, he⟩ | ⟨i, s', hf, he⟩
  · refine .inl ⟨fun i hi => ?_, _, he⟩
    obtain ⟨s, hs⟩ := hi
    rw [hidle] at hs
    cases hs
  · refine .inr ⟨i, ?_⟩
    rcases (fetch_run hf).2 with ⟨-, w, ws, -, -, rfl⟩ | ⟨b, -, -, rfl⟩ | ⟨-, -, pre, w, post, -, -, rfl⟩
    · exact ⟨ws, ⟨_, hf⟩, he⟩
    · exact ⟨_, ⟨_, hf⟩, he⟩
    · exact ⟨pre ++ post, ⟨_, hf⟩, he⟩

/-- Step `n` runs at most one operation. -/
theorem Run.takes_unique {r : Run} {i j : Instr} {n : Nat} (hi : r.takes i n) (hj : r.takes j n) : i = j := by
  obtain ⟨s, hs⟩ := hi
  obtain ⟨t, ht⟩ := hj
  rw [hs] at ht
  cases ht
  rfl

/-- If `P` enables `i` and every operation that does not reach `goal` keeps `P` and is not `i`, then a run that
is weakly fair to `i` reaches `goal` from `P`. -/
theorem Run.progress {r : Run} {enabled : State → Bool} {i : Instr} {P goal : State → Prop}
    (hv : r.valid) (hf : r.weaklyFair enabled i) (hen : ∀ s, P s → enabled s = true)
    (hsched : ∀ s ws, P s → P { s with sched := ws })
    (hkeep : ∀ j s t, P s → exec j s = .next t → ¬ goal t → j ≠ i ∧ P t)
    {n : Nat} (h0 : P (r.state n)) : ∃ m, n < m ∧ goal (r.state m) := by
  by_contra hn
  have hno : ∀ m, n < m → ¬ goal (r.state m) := fun m hm hg => hn ⟨m, hm, hg⟩
  have hP : ∀ m, n ≤ m → P (r.state m) := by
    intro m hm
    induction m, hm using Nat.le_induction with
    | base => exact h0
    | succ m hm ih =>
      rcases step_cases hv m with ⟨-, ws, he⟩ | ⟨j, ws, -, he⟩
      · rw [he]; exact hsched _ _ ih
      · exact (hkeep j _ _ (hsched _ ws ih) he (hno _ (by omega))).2
  obtain ⟨m, hm, htake⟩ := hf n fun m hm => hen _ (hP m hm)
  rcases step_cases hv m with ⟨hnone, -⟩ | ⟨j, ws, hj, he⟩
  · exact hnone i htake
  · exact (hkeep j _ _ (hsched _ ws (hP m hm)) he (hno _ (by omega))).1 (takes_unique hj htake)

end Sys2Proof.Machine
end

