-- ==== Sys2Proof/Laws/Memory.lean ====
section
/-! SUPPORT. The ring storage: what a read gives after a write, and that every operation keeps the canonical
form. -/

namespace Sys2Proof.Machine

@[simp] theorem Memory.read_nil (a : Nat) : Memory.read [] a = Memory.unlisted := rfl

theorem Memory.wfFrom_cons {lo : Nat} {c : Host.Cell} {m : Memory} :
    Memory.wfFrom lo (c :: m) = true ↔
      lo ≤ c.1 ∧ c.2 ≠ Memory.unlisted ∧ Memory.wfFrom (c.1 + 1) m = true := by
  simp [Memory.wfFrom, and_assoc]

theorem Memory.wfFrom_mono {lo lo' : Nat} {m : Memory} (hle : lo' ≤ lo)
    (h : Memory.wfFrom lo m = true) : Memory.wfFrom lo' m = true := by
  cases m with
  | nil => rfl
  | cons c m =>
    rw [Memory.wfFrom_cons] at h ⊢
    exact ⟨hle.trans h.1, h.2⟩

/-- Below the canonical form's first address nothing is listed. -/
theorem Memory.read_below {lo a : Nat} {m : Memory} (h : Memory.wfFrom lo m = true) (ha : a < lo) :
    Memory.read m a = Memory.unlisted := by
  induction m generalizing lo with
  | nil => rfl
  | cons c m ih =>
    rw [Memory.wfFrom_cons] at h
    rw [Memory.read, if_neg (by omega)]
    exact ih h.2.2 (by omega)

/-- Reading past an optional cell. -/
theorem Memory.read_cell {lo a x : Nat} {v : Byte} {m : Memory} (h : Memory.wfFrom lo m = true)
    (ha : a < lo) : Memory.read (Memory.cell a v m) x = if x = a then v else Memory.read m x := by
  unfold Memory.cell
  by_cases hv : v = Memory.unlisted
  · rw [if_pos hv]
    split
    · next hx => rw [hx, hv, Memory.read_below h ha]
    · rfl
  · rw [if_neg hv, Memory.read]
    simp only [eq_comm]

/-- A read after a write (R13): the byte written at its address, every other byte as before. -/
theorem Memory.read_write {m : Memory} (h : Memory.wf m = true) (a : Nat) (v : Byte) (x : Nat) :
    Memory.read (Memory.write m a v) x = if x = a then v else Memory.read m x := by
  have key : ∀ (m : Memory) (lo : Nat), Memory.wfFrom lo m = true →
      Memory.read (Memory.write m a v) x = if x = a then v else Memory.read m x := by
    intro m
    induction m with
    | nil => intro _ _; exact Memory.read_cell (lo := a + 1) rfl (by omega)
    | cons c m ih =>
      intro lo h
      have h' := Memory.wfFrom_cons.1 h
      simp only [Memory.write]
      split
      · next hlt =>
        refine Memory.read_cell (lo := c.1) ?_ hlt
        exact Memory.wfFrom_cons.2 ⟨le_refl _, h'.2⟩
      · split
        · next heq =>
          rw [Memory.read_cell h'.2.2 (by omega)]
          split
          · rfl
          · rw [Memory.read, if_neg (by omega)]
        · simp only [Memory.read, ih _ h'.2.2]
          split
          · next hc => rw [if_neg (by omega)]
          · rfl
  exact key m 0 h

@[simp] theorem Memory.read_write_same {m : Memory} (h : Memory.wf m = true) (a : Nat) (v : Byte) :
    Memory.read (Memory.write m a v) a = v := by
  rw [Memory.read_write h, if_pos rfl]

theorem Memory.read_write_other {m : Memory} (h : Memory.wf m = true) {a x : Nat} (v : Byte) (hx : x ≠ a) :
    Memory.read (Memory.write m a v) x = Memory.read m x := by
  rw [Memory.read_write h, if_neg hx]

theorem Memory.wfFrom_cell {lo a : Nat} {v : Byte} {m : Memory} (h : Memory.wfFrom (a + 1) m = true)
    (hle : lo ≤ a) : Memory.wfFrom lo (Memory.cell a v m) = true := by
  unfold Memory.cell
  split
  · exact Memory.wfFrom_mono (by omega) h
  · next hv => exact Memory.wfFrom_cons.2 ⟨hle, hv, h⟩

/-- A write keeps the canonical form. -/
theorem Memory.write_wfFrom {lo : Nat} {m : Memory} (h : Memory.wfFrom lo m = true) {a : Nat} (v : Byte)
    (hle : lo ≤ a) : Memory.wfFrom lo (Memory.write m a v) = true := by
  induction m generalizing lo with
  | nil => exact Memory.wfFrom_cell rfl hle
  | cons c m ih =>
    have h' := Memory.wfFrom_cons.1 h
    simp only [Memory.write]
    split
    · next hlt => exact Memory.wfFrom_cell (Memory.wfFrom_cons.2 ⟨hlt, h'.2⟩) hle
    · split
      · next heq => exact Memory.wfFrom_cell (heq ▸ h'.2.2) hle
      · exact Memory.wfFrom_cons.2 ⟨h'.1, h'.2.1, ih h'.2.2 (by omega)⟩

theorem Memory.write_wf {m : Memory} (h : Memory.wf m = true) (a : Nat) (v : Byte) :
    Memory.wf (Memory.write m a v) = true := Memory.write_wfFrom h v (Nat.zero_le _)

theorem Memory.cell_below {m : Memory} {n a : Nat} {v : Byte} (h : m.below n = true) (ha : a < n) :
    (Memory.cell a v m).below n = true := by
  unfold Memory.cell
  split
  · exact h
  · simpa [Memory.below, ha] using h

/-- A write to a slot below `n` lists no cell at or above `n`. -/
theorem Memory.write_below {m : Memory} {n a : Nat} {v : Byte} (h : m.below n = true) (ha : a < n) :
    (Memory.write m a v).below n = true := by
  induction m with
  | nil => exact Memory.cell_below rfl ha
  | cons c m ih =>
    have h' : c.1 < n ∧ Memory.below m n = true := by simpa [Memory.below] using h
    simp only [Memory.write]
    split
    · exact Memory.cell_below h ha
    · split
      · exact Memory.cell_below h'.2 ha
      · simpa [Memory.below, h'.1] using ih h'.2

/-- A slot depends on the configuration and the storage alone. -/
theorem slot?_congr {s t : State} (hc : t.cfg = s.cfg) (hb : t.buf = s.buf) (a : Nat) :
    t.slot? a = s.slot? a := by
  simp only [State.slot?, hc, hb]

/-- A slot after a store: the byte at the slot stored to, every other slot as before. -/
theorem slot?_after_store {s t : State} {i : Nat} {v : Byte} (hw : s.buf.wf = true) (hc : t.cfg = s.cfg)
    (hb : t.buf = s.buf.write i v) (a : Nat) :
    t.slot? a = if a = i ∧ i < s.cfg.N then some v else s.slot? a := by
  simp only [State.slot?, hc, hb, Memory.read_write hw]
  by_cases ha : a = i
  · subst ha; by_cases hi : a < s.cfg.N <;> simp [hi]
  · simp [ha]

/-- Reset memory has the canonical form. -/
theorem State.reset_buf_wf : State.reset.buf.wf = true := rfl

end Sys2Proof.Machine
end

