-- ==== Sys2Proof/Laws/PerInstr.lean ====
section
/-! SUPPORT. A statement for each operation as syntax (rules R70, R71, R74): its word is never reserved. -/

namespace Sys2Proof.Laws.EncodesLegal

/-- The word of the operation is one that R74 does not reserve. -/
def Statement (i : Instr) : Prop := Cmd.wf (encode i) = true

theorem reset : Statement .reset := by unfold Statement; decide
theorem initRxIrq : Statement .initRxIrq := by unfold Statement; decide
theorem rxArrive (b : Byte) : Statement (.rxArrive b) := by
  simp [Statement, encode, Cmd.wf, Cmd.takesOperand, Cmd.op_command]
theorem isrRxc : Statement .isrRxc := by unfold Statement; decide
theorem gbCheck : Statement .gbCheck := by unfold Statement; decide
theorem gbAdvance : Statement .gbAdvance := by unfold Statement; decide
theorem gbRead : Statement .gbRead := by unfold Statement; decide
theorem getError : Statement .getError := by unfold Statement; decide
theorem isrTxc : Statement .isrTxc := by unfold Statement; decide
theorem initTxOnly : Statement .initTxOnly := by unfold Statement; decide
theorem initRxPolled : Statement .initRxPolled := by unfold Statement; decide
theorem initTxrxPolled : Statement .initTxrxPolled := by unfold Statement; decide
theorem sendByte (b : Byte) : Statement (.sendByte b) := by
  simp [Statement, encode, Cmd.wf, Cmd.takesOperand, Cmd.op_command]
theorem txDrain : Statement .txDrain := by unfold Statement; decide

end Sys2Proof.Laws.EncodesLegal
end

