-- ==== Sys2Proof/Laws/Pseudo.lean ====
section
/-! SUPPORT. Running operations in sequence, what every operation leaves alone of the configuration and the
schedule, and which fields the parts of the ring and observation invariants look at. -/

namespace Sys2Proof.Machine

/-- A sequence runs its first part, then its second. -/
theorem runAll_append (is js : List Instr) (s : State) :
    runAll (is ++ js) s =
      match runAll is s with
      | .next s' => runAll js s'
      | .fault r => .fault r
      | .refused r => .refused r := by
  induction is generalizing s with
  | nil => rfl
  | cons i is ih =>
    simp only [List.cons_append, runAll]
    cases exec i s <;> simp [ih]

/-- A schedule of the consumer's words offers no word of another agent. -/
theorem takeOther_none {ws : List Cmd} (h : ∀ w ∈ ws, ∃ i, decode w = .ok i ∧ agentOf i = .consumer) :
    takeOther ws = none := by
  induction ws with
  | nil => rfl
  | cons w ws ih =>
    obtain ⟨i, hi, ha⟩ := h w (by simp)
    simp [takeOther, otherAgents, hi, ha, ih fun v hv => h v (List.mem_cons_of_mem _ hv)]

theorem inflight_congr {s t : State} (hp : t.cphase = s.cphase) (hb : t.buf = s.buf)
    (ht : t.tail = s.tail) : t.inflight = s.inflight := by
  simp only [State.inflight, hp, hb, ht]

theorem pending_congr {s t : State} (hc : t.rxc = s.rxc) (hd : t.rxData = s.rxData) :
    t.pending = s.pending := by
  simp only [State.pending, hc, hd]

theorem fifo_congr {s t : State} (hc : t.cfg = s.cfg) (hq : t.queue = s.queue)
    (he : t.lastError = s.lastError) : t.fifo = s.fifo := by
  simp only [State.fifo, hc, hq, he]

end Sys2Proof.Machine
end

