-- ==== Sys2Proof/Laws/Ring.lean ====
section
/-! SUPPORT. The ring's arithmetic: masking is the modulus for every legal capacity, and how the successor,
the count and the queue move together. -/

namespace Sys2Proof.Machine

set_option maxRecDepth 8000 in
/-- The legal capacities. -/
theorem capacity_cases {c : Config} (h : c.wf = true) : ∃ k, 1 ≤ k ∧ k ≤ 8 ∧ c.N = 2 ^ k := by
  have key : ∀ n : Fin 257, (n.val != 0 && n.val &&& (n.val - 1) == 0) = true → 2 ≤ n.val →
      n.val ∈ ([1, 2, 3, 4, 5, 6, 7, 8].map (2 ^ ·)) := by decide
  simp only [Config.wf, Config.capacityPow2, Config.capacityAtLeast2, Config.capacityByteIndexed,
    Bool.and_eq_true, decide_eq_true_eq] at h
  obtain ⟨⟨⟨⟨⟨hp, h2⟩, h256⟩, -⟩, -⟩, -⟩ := h
  obtain ⟨k, hk, hN⟩ := List.mem_map.1 (key ⟨c.N, by omega⟩ (by simpa using hp) h2)
  exact ⟨k, by fin_cases hk <;> omega, by fin_cases hk <;> omega, hN.symm⟩

theorem capacity_ge {c : Config} (h : c.wf = true) : 2 ≤ c.N := by
  simp only [Config.wf, Config.capacityAtLeast2, Bool.and_eq_true, decide_eq_true_eq] at h
  exact h.1.1.1.1.2

theorem capacity_le {c : Config} (h : c.wf = true) : c.N ≤ 256 := by
  simp only [Config.wf, Config.capacityByteIndexed, Bool.and_eq_true, decide_eq_true_eq] at h
  exact h.1.1.1.2

theorem codes_differ {c : Config} (h : c.wf = true) : c.errFull ≠ c.errNone := by
  simp only [Config.wf, Config.codesDiffer, Bool.and_eq_true, bne_iff_ne] at h
  exact h.1.1.2

theorem fixed_bytes {c : Config} (h : c.wf = true) : c.emptySentinel = 0x00 ∧ c.newline = 0x0A := by
  simp only [Config.wf, Config.fixedValues, Bool.and_eq_true, beq_iff_eq] at h
  exact ⟨h.2.1.2, h.2.2⟩

/-- The mask is the modulus (R10, R57). -/
theorem and_mask {c : Config} (h : c.wf = true) (x : Nat) : x &&& c.mask = x % c.N := by
  obtain ⟨k, -, -, hN⟩ := capacity_cases h
  rw [Config.mask, hN, Nat.and_two_pow_sub_one_eq_mod]

theorem and_mask_lt {c : Config} (h : c.wf = true) (x : Nat) : x &&& c.mask < c.N := by
  rw [and_mask h]; exact Nat.mod_lt _ (by have := capacity_ge h; omega)

/-- The successor as a number. -/
theorem indexSucc_val {c : Config} (h : c.wf = true) (i : Byte) :
    (indexSucc c i).toNat = (i.toNat + 1) % c.N := by
  have := and_mask_lt h (i.toNat + 1)
  have := capacity_le h
  rw [indexSucc, BitVec.toNat_ofNat, Nat.mod_eq_of_lt (by omega), and_mask h]

theorem indexSucc_in_ring {c : Config} (h : c.wf = true) (i : Byte) : (indexSucc c i).toNat < c.N := by
  rw [indexSucc_val h]; exact Nat.mod_lt _ (by have := capacity_ge h; omega)

theorem slotAfterTail_eq {s : State} (h : s.cfg.wf = true) (k : Nat) :
    s.slotAfterTail k = (s.tail.toNat + k) % s.cfg.N := and_mask h _

/-- Within the ring the count is the difference of the indices, once around at most. -/
theorem count_cases {s : State} (h : s.InRange) :
    (s.tail.toNat ≤ s.head.toNat ∧ s.count = s.head.toNat - s.tail.toNat) ∨
      (s.head.toNat < s.tail.toNat ∧ s.count = s.head.toNat + s.cfg.N - s.tail.toNat) := by
  obtain ⟨-, hh, ht⟩ := h
  unfold State.count
  rcases Nat.lt_or_ge s.head.toNat s.tail.toNat with hlt | hge
  · exact .inr ⟨hlt, Nat.mod_eq_of_lt (by omega)⟩
  · refine .inl ⟨hge, ?_⟩
    rw [show s.head.toNat + s.cfg.N - s.tail.toNat = s.head.toNat - s.tail.toNat + s.cfg.N by omega,
      Nat.add_mod_right, Nat.mod_eq_of_lt (by omega)]

/-- R138(b). -/
theorem count_lt {s : State} (h : s.InRange) : s.count < s.cfg.N := by
  have := h.headIn; have := h.tailIn
  rcases count_cases h with ⟨h1, h2⟩ | ⟨h1, h2⟩ <;> omega

/-- A sum of an index and at most `N`, reduced. -/
theorem wrap {a b N : Nat} (ha : a < N) (hb : b ≤ N) :
    (a + b) % N = if a + b < N then a + b else a + b - N := by
  split
  · exact Nat.mod_eq_of_lt ‹_›
  · rw [Nat.mod_eq_sub_mod (by omega), Nat.mod_eq_of_lt (by omega)]

theorem candidateHead_val {s : State} (h : s.InRange) :
    s.candidateHead.toNat = if s.head.toNat + 1 < s.cfg.N then s.head.toNat + 1 else 0 := by
  have := h.headIn
  have := capacity_ge h.cfgWf
  rw [State.candidateHead, indexSucc_val h.cfgWf, wrap h.headIn (by omega)]
  split <;> omega

theorem tailSucc_val {s : State} (h : s.InRange) :
    (indexSucc s.cfg s.tail).toNat = if s.tail.toNat + 1 < s.cfg.N then s.tail.toNat + 1 else 0 := by
  have := h.tailIn
  have := capacity_ge h.cfgWf
  rw [indexSucc_val h.cfgWf, wrap h.tailIn (by omega)]
  split <;> omega

theorem isEmpty_iff {s : State} (h : s.InRange) : s.isEmpty = true ↔ s.count = 0 := by
  have := h.headIn; have := h.tailIn
  simp only [State.isEmpty, beq_iff_eq, BitVec.toNat_inj.symm]
  rcases count_cases h with ⟨h1, h2⟩ | ⟨h1, h2⟩ <;> omega

theorem isFull_iff {s : State} (h : s.InRange) : s.isFull = true ↔ s.count = s.cfg.N - 1 := by
  have := h.headIn; have := h.tailIn; have := capacity_ge h.cfgWf
  have hc := candidateHead_val h
  simp only [State.isFull, beq_iff_eq, BitVec.toNat_inj.symm]
  rcases count_cases h with ⟨h1, h2⟩ | ⟨h1, h2⟩ <;> split at hc <;> omega

@[simp] theorem queue_length (s : State) : s.queue.length = s.count := by simp [State.queue]

/-- The next free slot lies one past the newest byte. -/
theorem slotAfterTail_count_succ {s : State} (h : s.InRange) :
    s.slotAfterTail (s.count + 1) = s.candidateHead.toNat := by
  have := h.headIn; have := h.tailIn; have := capacity_ge h.cfgWf
  have hlt := count_lt h
  have hc := candidateHead_val h
  rw [slotAfterTail_eq h.cfgWf, wrap h.tailIn (by omega)]
  rcases count_cases h with ⟨h1, h2⟩ | ⟨h1, h2⟩ <;> split at hc <;> split <;> omega

/-- No undelivered byte lies in the next free slot (R137). -/
theorem slotAfterTail_ne_candidate {s : State} (h : s.InRange) {k : Nat} (hk : k ≤ s.count)
    (hf : s.isFull = false) : s.slotAfterTail k ≠ s.candidateHead.toNat := by
  have := h.headIn; have := h.tailIn; have := capacity_ge h.cfgWf
  have hlt := count_lt h
  have hc := candidateHead_val h
  have hfull : ¬ s.count = s.cfg.N - 1 := fun hn => by simp [(isFull_iff h).2 hn] at hf
  rw [slotAfterTail_eq h.cfgWf, wrap h.tailIn (by omega)]
  rcases count_cases h with ⟨h1, h2⟩ | ⟨h1, h2⟩ <;> split at hc <;> split <;> omega

/-- The queue depends only on the ring's own fields. -/
theorem queue_congr {s t : State} (hc : t.cfg = s.cfg) (hb : t.buf = s.buf) (hh : t.head = s.head)
    (ht : t.tail = s.tail) : t.queue = s.queue := by
  simp only [State.queue, State.count, State.slotAfterTail, hc, hb, hh, ht]

theorem count_congr {s t : State} (hc : t.cfg = s.cfg) (hh : t.head = s.head) (ht : t.tail = s.tail) :
    t.count = s.count := by
  simp only [State.count, hc, hh, ht]

/-- With equal indices nothing is queued. -/
theorem queue_of_empty {s : State} (h : s.InRange) (he : s.head = s.tail) : s.queue = [] := by
  have h0 : s.count = 0 := (isEmpty_iff h).1 (by simp [State.isEmpty, he])
  simp [State.queue, h0]

/-- Storing at the next free slot and publishing it appends to the queue (R106, R111). -/
theorem queue_push {s t : State} {b : Byte} (h : s.InRange) (hw : s.buf.wf = true)
    (hf : s.isFull = false) (hc : t.cfg = s.cfg) (hb : t.buf = s.buf.write s.candidateHead.toNat b)
    (hh : t.head = s.candidateHead) (ht : t.tail = s.tail) :
    t.count = s.count + 1 ∧ t.queue = s.queue ++ [b] := by
  have hR : t.InRange := by
    refine ⟨hc ▸ h.cfgWf, ?_, ?_⟩
    · rw [hh, hc]; exact indexSucc_in_ring h.cfgWf _
    · rw [ht, hc]; exact h.tailIn
  have hcount : t.count = s.count + 1 := by
    have := h.headIn; have := h.tailIn; have := capacity_ge h.cfgWf
    have hv := candidateHead_val h
    have hfull : ¬ s.count = s.cfg.N - 1 := fun hn => by simp [(isFull_iff h).2 hn] at hf
    have hs := count_cases h
    have htc := count_cases hR
    rw [hh, ht, hc] at htc
    split at hv <;> omega
  refine ⟨hcount, ?_⟩
  have hslot : ∀ k, t.slotAfterTail k = s.slotAfterTail k := by
    intro k; simp only [State.slotAfterTail, hc, ht]
  simp only [State.queue, hcount, List.range_succ, List.map_append, List.map_cons, List.map_nil, hslot, hb]
  congr 1
  · refine List.map_congr_left fun k hk => ?_
    have hk' := List.mem_range.1 hk
    exact Memory.read_write_other hw b (slotAfterTail_ne_candidate h (by omega) hf)
  · rw [slotAfterTail_count_succ h, Memory.read_write_same hw]

/-- Advancing `tail` takes the oldest byte off the queue; it lies in the new slot `tail` (R117, R125). -/
theorem queue_advance {s t : State} (h : s.InRange) (hne : 1 ≤ s.count) (hc : t.cfg = s.cfg)
    (hb : t.buf = s.buf) (hh : t.head = s.head) (ht : t.tail = indexSucc s.cfg s.tail) :
    t.count + 1 = s.count ∧ s.queue = t.buf.read t.tail.toNat :: t.queue := by
  have hR : t.InRange := by
    refine ⟨hc ▸ h.cfgWf, ?_, ?_⟩
    · rw [hh, hc]; exact h.headIn
    · rw [ht, hc]; exact indexSucc_in_ring h.cfgWf _
  have hcount : t.count + 1 = s.count := by
    have := h.headIn; have := h.tailIn; have := capacity_ge h.cfgWf
    have hv := tailSucc_val h
    have hs := count_cases h
    have htc := count_cases hR
    rw [hh, ht, hc] at htc
    split at hv <;> omega
  refine ⟨hcount, ?_⟩
  have hslot : ∀ k, t.slotAfterTail k = s.slotAfterTail (k + 1) := by
    intro k
    rw [slotAfterTail_eq h.cfgWf, slotAfterTail_eq hR.cfgWf, hc, ht, indexSucc_val h.cfgWf,
      Nat.mod_add_mod]
    congr 1; omega
  have hfirst : s.slotAfterTail 1 = t.tail.toNat := by
    rw [slotAfterTail_eq h.cfgWf, ht, indexSucc_val h.cfgWf]
  simp only [State.queue, ← hcount, List.range_succ_eq_map, List.map_cons, List.map_map, hb, hslot,
    Nat.zero_add, hfirst]
  rfl

end Sys2Proof.Machine
end

