-- ==== Sys2Proof/Tests/Slice0.lean ====
section
/-! SUPPORT. Tests from the vectors of spec/95_test_vectors.md (named in each comment), a smoke test for each
well-formedness check, and a witness for the hypotheses of each statement. -/

namespace Sys2Proof.Tests
open Sys2Proof Sys2Proof.Machine

/-! ### Small states, `N = 4` -/

/-- After RESET (V1). -/
def fresh : State := { State.reset with cfg := { N := 4 } }

/-- After INIT_RX_IRQ (V2), with a ring. -/
def ready (head tail : Byte) (buf : Memory) : State :=
  { fresh with
    head := head, tail := tail, buf := buf, rxen := true, rxcie := true, gie := true,
    frameFmt := .f8n1, inited := true }

/-- The same with a byte waiting in the receiver. -/
def waiting (head tail : Byte) (buf : Memory) (b : Byte) : State :=
  { ready head tail buf with rxData := b, rxc := true }

/-- After INIT_TXRX_POLLED (V6). -/
def sender : State := { fresh with rxen := true, txen := true, frameFmt := .f8n1, inited := true }

/-- The bytes 0x41, 0x42, 0x43 in slots 1 to 3. -/
def abc : Memory := [(1, 0x41), (2, 0x42), (3, 0x43)]

/-- Inside a `getByte`: after GB_CHECK (V31), and after GB_ADVANCE (V32). -/
def decided : State := { ready 2 0 abc with cphase := .nonempty }
def reading : State := { ready 2 1 abc with cphase := .advanced }

/-- A byte waits and the handler is held off (V17). -/
def masked : State := { waiting 0 0 [] 0x41 with gie := false }

/-- The data register holds a byte to send, and SEND_BYTE(0x42) waits for it (V61). -/
def full : State := { sender with txData := 0x41, udre := false }
def holding (ws : List Cmd) : State := { full with held := some 0x42, sched := ws }

/-! ### Well-formedness: each check refuses an ill-formed term -/

theorem test_wf_default : Config.wf {} = true ∧ Config.wf { N := 2 } = true ∧
    Config.wf { N := 256 } = true := by decide
theorem test_wf_pow2 : Config.capacityPow2 { N := 3 } = false ∧ Config.wf { N := 3 } = false := by decide
theorem test_wf_zero : Config.capacityPow2 { N := 0 } = false ∧ Config.wf { N := 0 } = false := by decide
theorem test_wf_atLeast2 : Config.capacityAtLeast2 { N := 1 } = false ∧ Config.wf { N := 1 } = false := by
  decide
theorem test_wf_byteIndexed :
    Config.capacityByteIndexed { N := 512 } = false ∧ Config.wf { N := 512 } = false := by decide
theorem test_wf_codes :
    Config.codesDiffer { errFull := 0 } = false ∧ Config.wf { errFull := 0 } = false := by decide
theorem test_wf_receiver : Config.receiverHoldsAByte { rxHwDepth := 0 } = false ∧
    Config.wf { rxHwDepth := 0 } = false ∧ Config.wf { rxHwDepth := 2 } = true := by decide
theorem test_wf_fixed : Config.wf { dataW := 16 } = false ∧ Config.wf { idxW := 16 } = false ∧
    Config.wf { errW := 16 } = false ∧ Config.wf { emptySentinel := 0xFF } = false ∧
    Config.wf { newline := 0x0D } = false := by decide
theorem test_wf_word : Cmd.wf 0x401#12 = false ∧ Cmd.wf 0xE00#12 = false ∧ Cmd.wf 0xF7A#12 = false ∧
    Cmd.wf 0x2FF#12 = true := by decide
theorem test_wf_line : lineWf [0x41, 0x42] = false ∧ lineWf [0x41, 0x00] = true := by decide

/-! ### Decoding: every constructor's word, from the table of R72 (V70 to V76) -/

theorem test_decode_env : decode 0x000#12 = .ok .reset ∧ decode 0x2FF#12 = .ok (.rxArrive 0xFF) ∧
    decode 0x200#12 = .ok (.rxArrive 0x00) ∧ decode 0xD00#12 = .ok .txDrain := ⟨rfl, rfl, rfl, rfl⟩
theorem test_decode_handlers : decode 0x300#12 = .ok .isrRxc ∧ decode 0x800#12 = .ok .isrTxc := ⟨rfl, rfl⟩
theorem test_decode_init : decode 0x100#12 = .ok .initRxIrq ∧ decode 0x900#12 = .ok .initTxOnly ∧
    decode 0xA00#12 = .ok .initRxPolled ∧ decode 0xB00#12 = .ok .initTxrxPolled := ⟨rfl, rfl, rfl, rfl⟩
theorem test_decode_consumer : decode 0x400#12 = .ok .gbCheck ∧ decode 0x500#12 = .ok .gbAdvance ∧
    decode 0x600#12 = .ok .gbRead ∧ decode 0x700#12 = .ok .getError ∧
    decode 0xC0A#12 = .ok (.sendByte 0x0A) := ⟨rfl, rfl, rfl, rfl, rfl⟩
theorem test_decode_reserved : decode 0x401#12 = .error .operandNotZero ∧
    decode 0xE00#12 = .error .reservedOp ∧ decode 0xF7A#12 = .error .reservedOp := ⟨rfl, rfl, rfl⟩
/-- The words of R72's column `word (hex)`. -/
theorem test_encode : encode (.rxArrive 0x41) = 0x241#12 ∧ encode (.sendByte 0xFF) = 0xCFF#12 ∧
    encode .gbRead = 0x600#12 ∧ encode .initTxrxPolled = 0xB00#12 := by decide
theorem test_table_word : decodeTableWord 16 0x0241 = some (.rxArrive 0x41) ∧
    decodeTableWord 16 0x0300 = some .isrRxc ∧ decodeTableWord 12 0xE00 = none ∧
    decodeTableWord 16 0x1300 = none := ⟨rfl, rfl, rfl, rfl⟩

/-! ### One operation at a time -/

/-- V1: RESET in the middle of a `getByte`, after an overflow. -/
theorem test_reset : ∃ t, exec .reset { ready 3 0 abc with lastError := 0xFF, cphase := .advanced } = .next t ∧
    t.buf = [] ∧ t.head = 0 ∧ t.tail = 0 ∧ t.lastError = 0 ∧ t.rxc = false ∧ t.udre = true ∧
    t.rxen = false ∧ t.rxcie = false ∧ t.gie = false ∧ t.inited = false ∧ t.cphase = .idle :=
  ⟨_, rfl, by decide⟩
/-- V2, V9 with the divisor 0xABC. -/
theorem test_initRxIrq : ∃ t, exec .initRxIrq { fresh with cfg := { N := 4, baudDiv := 0xABC } } = .next t ∧
    t.rxen = true ∧ t.txen = false ∧ t.rxcie = true ∧ t.gie = true ∧ t.inited = true ∧
    t.frameFmt = .f8n1 ∧ t.baudH = 0xA ∧ t.baudL = 0xBC := ⟨_, rfl, by decide⟩
/-- V3. -/
theorem test_initRxIrq_twice : exec .initRxIrq (ready 0 0 []) = .refused .initTwice := rfl
/-- V4, V9 with the divisor 0x067. -/
theorem test_initTxOnly : ∃ t, exec .initTxOnly { fresh with cfg := { N := 4, baudDiv := 0x067 } } = .next t ∧
    t.rxen = false ∧ t.txen = true ∧ t.rxcie = false ∧ t.gie = false ∧ t.inited = true ∧
    t.baudH = 0x0 ∧ t.baudL = 0x67 := ⟨_, rfl, by decide⟩
/-- V5. -/
theorem test_initRxPolled : ∃ t, exec .initRxPolled fresh = .next t ∧
    t.rxen = true ∧ t.txen = false ∧ t.rxcie = false ∧ t.gie = false ∧ t.inited = true :=
  ⟨_, rfl, by decide⟩
/-- V6. -/
theorem test_initTxrxPolled : ∃ t, exec .initTxrxPolled fresh = .next t ∧
    t.rxen = true ∧ t.txen = true ∧ t.rxcie = false ∧ t.gie = false ∧ t.inited = true :=
  ⟨_, rfl, by decide⟩
/-- V10, first word. -/
theorem test_rxArrive : ∃ t, exec (.rxArrive 0x41) (ready 0 0 []) = .next t ∧
    t.rxData = 0x41 ∧ t.rxc = true ∧ t.head = 0 ∧ t.hwOverrun = false := ⟨_, rfl, by decide⟩
/-- V15. -/
theorem test_rxArrive_overrun : ∃ t, exec (.rxArrive 0x62) (waiting 0 0 [] 0x61) = .next t ∧
    t.rxData = 0x61 ∧ t.rxc = true ∧ t.hwOverrun = true ∧ t.lastError = 0 ∧
    t.obs.arrived = [0x62] ∧ t.obs.latched = [] := ⟨_, rfl, by decide⟩
/-- V10, second word, and V13: the first byte lands in slot 1, slot 0 is used at the wrap. -/
theorem test_isrRxc : (∃ t, exec .isrRxc (waiting 0 0 [] 0x41) = .next t ∧
      t.head = 1 ∧ t.tail = 0 ∧ t.buf = [(1, 0x41)] ∧ t.lastError = 0 ∧ t.rxc = false) ∧
    ∃ t, exec .isrRxc { waiting 3 1 abc 0x45 with lastError := 0xFF } = .next t ∧
      t.head = 0 ∧ t.tail = 1 ∧ t.buf = (0, 0x45) :: abc ∧ t.lastError = 0xFF :=
  ⟨⟨_, rfl, by decide⟩, ⟨_, rfl, by decide⟩⟩
/-- V12, V17: full, and masked. -/
theorem test_isrRxc_full : (∃ t, exec .isrRxc (waiting 3 0 abc 0x44) = .next t ∧
      t.head = 3 ∧ t.buf = abc ∧ t.lastError = 0xFF ∧ t.rxc = false ∧ t.obs.dropped = [0x44]) ∧
    exec .isrRxc { waiting 3 0 abc 0x44 with gie := false } = .refused .wrongContext :=
  ⟨⟨_, rfl, by decide⟩, rfl⟩
/-- R165. -/
theorem test_isrTxc : exec .isrTxc (ready 2 0 abc) = .next (ready 2 0 abc) ∧
    exec .isrTxc fresh = .next fresh := ⟨rfl, rfl⟩
/-- V30, V31. -/
theorem test_gbCheck : exec .gbCheck (ready 2 2 abc) =
      .next { ready 2 2 abc with returned := [.getByte 0x00] } ∧
    exec .gbCheck (ready 2 0 abc) = .next decided := ⟨rfl, rfl⟩
/-- V7, V36, V38. -/
theorem test_gbCheck_refused : exec .gbCheck fresh = .refused .notInitialised ∧
    exec .gbCheck decided = .refused .consumerBusy ∧
    exec .gbCheck { ready 2 2 abc with gie := false } =
      .next { ready 2 2 abc with gie := false, returned := [.getByte 0x00] } := ⟨rfl, rfl, rfl⟩
/-- V32, V34: the wrap. -/
theorem test_gbAdvance : (∃ t, exec .gbAdvance decided = .next t ∧
      t.tail = 1 ∧ t.cphase = .advanced) ∧
    ∃ t, exec .gbAdvance { ready 1 3 abc with cphase := .nonempty } = .next t ∧ t.tail = 0 :=
  ⟨⟨_, rfl, by decide⟩, ⟨_, rfl, by decide⟩⟩
/-- V35. -/
theorem test_out_of_sequence : exec .gbAdvance (ready 2 0 abc) = .refused .outOfSequence ∧
    exec .gbRead (ready 2 0 abc) = .refused .outOfSequence := ⟨rfl, rfl⟩
/-- V33, V37: a byte, and a received 0x00. -/
theorem test_gbRead : (∃ t, exec .gbRead reading = .next t ∧
      t.returned = [.getByte 0x41] ∧ t.cphase = .idle ∧ t.buf = abc ∧ t.obs.delivered = [0x41]) ∧
    ∃ t, exec .gbRead { ready 1 1 [] with cphase := .advanced } = .next t ∧
      t.returned = [.getByte 0x00] ∧ t.obs.delivered = [0x00] := ⟨⟨_, rfl, by decide⟩, ⟨_, rfl, by decide⟩⟩
/-- V8, V39. -/
theorem test_getError : (∃ t, exec .getError fresh = .next t ∧ t.returned = [.getError 0x00]) ∧
    ∃ t, exec .getError { ready 3 0 abc with lastError := 0xFF } = .next t ∧
      t.returned = [.getError 0xFF] ∧ t.lastError = 0xFF := ⟨⟨_, rfl, by decide⟩, ⟨_, rfl, by decide⟩⟩
/-- V60, V63. -/
theorem test_sendByte : (∃ t, exec (.sendByte 0x41) sender = .next t ∧ t.txData = 0x41 ∧ t.udre = false) ∧
    exec (.sendByte 0x41) (ready 0 0 []) = .refused .txDisabled := ⟨⟨_, rfl, by decide⟩, rfl⟩
/-- V61: held while the data register is full, also past the consumer's next word. -/
theorem test_sendByte_held :
    step { full with sched := [0xC42] } = .next (holding []) ∧
      step (holding [0x700]) = .next (holding [0x700]) := ⟨rfl, rfl⟩
/-- V62, V64. -/
theorem test_txDrain : (∃ t, exec .txDrain full = .next t ∧
      t.obs.wire = [0x41] ∧ t.udre = true) ∧ exec .txDrain sender = .next sender :=
  ⟨⟨_, rfl, by decide⟩, rfl⟩
/-- V18: with the receiver off there is no step, and nothing is refused. -/
theorem test_rxArrive_off : exec (.rxArrive 0x41) fresh = .next fresh := rfl

/-- V21 to V27. -/
theorem test_indexSucc : indexSucc { N := 2 } 0 = 1 ∧ indexSucc { N := 2 } 1 = 0 ∧
    indexSucc { N := 4 } 3 = 0 ∧ indexSucc { N := 32 } 30 = 31 ∧ indexSucc { N := 32 } 31 = 0 ∧
    indexSucc { N := 256 } 254 = 255 ∧ indexSucc { N := 256 } 255 = 0 := by decide
/-- V65 and E5 (R83). -/
theorem test_sendLine : sendLineSteps {} [0x00] = some [.sendByte 0x0A] ∧
    sendLineSteps {} [0x41, 0x42, 0x00] = some [.sendByte 0x41, .sendByte 0x42, .sendByte 0x0A] ∧
    sendLineSteps {} [0x41] = none := by decide
/-- R82: the pseudo-operation's two forms. -/
theorem test_getByteSteps : getByteSteps (ready 2 2 abc) = [.gbCheck] ∧
    getByteSteps (ready 2 0 abc) = [.gbCheck, .gbAdvance, .gbRead] := by decide
/-- R36's table, over R32 and R33: control-A with both flags set, control-B in the interrupt-driven mode,
control-C as 8 data bits, no parity, 1 stop bit; baud-high's upper four bits known only after init (R35). -/
theorem test_regView : (waiting 0 0 [] 0x41).regView .controlA = { known := 0xA0, value := 0xA0 } ∧
    (ready 0 0 []).regView .controlB = { known := 0x98, value := 0x90 } ∧
    (ready 0 0 []).regView .controlC = { known := 0x3E, value := 0x06 } ∧
    fresh.regView .baudHigh = { known := 0x0F, value := 0x00 } ∧
    (ready 0 0 []).regView .baudHigh = { known := 0xFF, value := 0x00 } := by decide
/-- R38's table. -/
theorem test_mode : fresh.mode? = some .uninitialised ∧ (ready 0 0 []).mode? = some .rxInterruptDriven ∧
    sender.mode? = some .rxTxPolled := by decide
/-- R184, BAD_CONFIG, and an empty schedule. -/
theorem test_step_config : step { State.reset with cfg := { N := 3 } } = .refused .badConfig ∧
    step fresh = .next fresh := ⟨rfl, rfl⟩
/-- V73: a reserved word is refused. -/
theorem test_step_reserved : step { fresh with sched := [0x401] } = .refused .reservedEncoding := rfl
/-- The first step after reset runs the placed word. -/
theorem test_withFetchWord : ∃ t, step (State.reset.withFetchWord 16 0x0100) = .next t ∧
    t.inited = true ∧ t.sched = [] := ⟨_, rfl, by decide⟩

/-! ### Witnesses: each shows a state and operands that meet the hypotheses of the statement it is named
after, clause by clause where a statement has several -/

theorem inRange_ready : (ready 2 0 abc).InRange := ⟨by decide, by decide, by decide⟩
theorem storageOk_ready : (ready 2 0 abc).StorageOk := ⟨by decide, by decide⟩

theorem witness_EncodeOfDecodeIsTheWord : decode 0x241#12 = .ok (.rxArrive 0x41) := rfl
theorem witness_ReservedWordsAreExactlyRefused :
    fresh.cfg.wf = true ∧ ({ fresh with sched := [0xE00] } : State).held = none ∧
      decode 0xE00#12 = .error .reservedOp ∧ decode 0x401#12 = .error .operandNotZero :=
  ⟨by decide, rfl, rfl, rfl⟩
theorem witness_StepRunsTheDecodedInstruction :
    let s : State := { waiting 3 0 abc 0x44 with sched := [0x300, 0x400] }
    (s.cfg.wf = true ∧ s.held = none ∧ s.sched = 0x300#12 :: [0x400#12] ∧
      decode 0x300#12 = .ok .isrRxc) ∧
    (holding [0x241]).held ≠ none ∧ agentOf (.rxArrive 0x41) ≠ .consumer ∧
      decode 0x241#12 = .ok (.rxArrive 0x41) :=
  ⟨⟨by decide, rfl, rfl, rfl⟩, by decide, by decide, rfl⟩
/-- `N` of 3, of 1 and of 257, equal error codes, a receiver of no byte and a wrong newline: the values next to
the legal ones. -/
theorem witness_IllFormedConfigurationIsRefused :
    (∀ k, ({ State.reset with cfg := { N := 3 } } : State).cfg.N ≠ 2 ^ k) ∧
    ({ State.reset with cfg := { N := 1 } } : State).cfg.N < 2 ∧
    256 < ({ State.reset with cfg := { N := 257 } } : State).cfg.N ∧
    ({ errFull := 0 } : Config).errFull = ({ errFull := 0 } : Config).errNone ∧
    ({ rxHwDepth := 0 } : Config).rxHwDepth = 0 ∧
    Config.fixedValues { newline := 0x0D } = false := by
  refine ⟨fun k => ?_, by decide, by decide, rfl, rfl, by decide⟩
  rcases k with _ | _ | k
  · decide
  · decide
  · show (3 : Nat) ≠ 2 ^ (k + 2)
    rw [Nat.pow_add]; omega
theorem witness_WhereThereIsNoStepNothingChanges :
    (fresh.cfg.wf = true ∧ fresh.held = none ∧ fresh.sched = []) ∧ fresh.rxen = false ∧
      ¬(fresh.txen = true ∧ fresh.udre = false) := by decide
/-- A step that takes the first word, and one that takes a word behind a waiting consumer's. -/
theorem witness_StepKeepsConfigurationAndTakesOneWord :
    (∃ t, step { fresh with sched := [0x100, 0x700] } = .next t ∧ t.sched = [0x700]) ∧
      ∃ t, step (holding [0x700, 0xD00]) = .next t ∧
        t.sched = [0x700] := ⟨⟨_, rfl, rfl⟩, ⟨_, rfl, rfl⟩⟩
theorem witness_ResetOperationEffect : (∃ t, exec .reset (ready 3 0 abc) = .next t) ∧
    (ready 3 0 abc).cfg.errNone = 0 := ⟨⟨_, rfl⟩, rfl⟩
/-- For the clauses of InitTxOnlyEffect, GbCheckEffect and SendLineTransmitsThePayload about a fixed value. -/
theorem witness_FixedValues : fresh.cfg.wf = true ∧ (ready 2 2 abc).cfg.wf = true ∧
    sender.cfg.wf = true := by decide
/-- For the four init operations: the completing clause, and the second init. -/
theorem witness_InitEffects :
    (fresh.inited = false ∧ fresh.cphase = .idle) ∧ (ready 0 0 []).inited = true := by decide
/-- The corner cases of R92 to R94: what each leaves, and an operation that goes on from there. -/
theorem witness_InitCorners :
    ((∃ t, exec .initTxOnly fresh = .next t) ∧ fresh.rxc = false ∧ fresh.head = fresh.tail) ∧
    (∃ s : State, s.ReceiverOff ∧ Instr.gbCheck ≠ .reset ∧ ∃ t, exec .gbCheck s = .next t) ∧
    (∃ t, exec .initRxPolled fresh = .next t) ∧ (∃ t, exec .initTxrxPolled fresh = .next t) ∧
    sender.HandlerOff ∧ sender.rxen = true ∧ ({ sender with rxc := true } : State).HandlerOff ∧
      ∃ t, exec .gbCheck sender = .next t :=
  ⟨⟨⟨_, rfl⟩, rfl, rfl⟩,
    ⟨{ fresh with txen := true, inited := true }, ⟨rfl, rfl, rfl, rfl, rfl⟩, by decide, ⟨_, rfl⟩⟩,
    ⟨_, rfl⟩, ⟨_, rfl⟩, ⟨rfl, rfl⟩, rfl, ⟨rfl, rfl⟩, ⟨_, rfl⟩⟩
/-- Before init, in the model's own invariant. -/
theorem witness_InitRxIrqPending : fresh.PortInv ∧ fresh.inited = false :=
  ⟨⟨by decide, by decide, by decide, by decide, by decide, by decide, by decide, by decide⟩, rfl⟩
theorem witness_InitFrame : (∃ t, exec .initRxIrq fresh = .next t) ∧ (∃ t, exec .initTxOnly fresh = .next t) ∧
    (∃ t, exec .initRxPolled fresh = .next t) ∧ ∃ t, exec .initTxrxPolled fresh = .next t :=
  ⟨⟨_, rfl⟩, ⟨_, rfl⟩, ⟨_, rfl⟩, ⟨_, rfl⟩⟩
theorem witness_ConfiguredOnlyOnce : (ready 0 0 []).inited = true ∧ Instr.rxArrive 0x41 ≠ .reset ∧
    ∃ t, exec (.rxArrive 0x41) (ready 0 0 []) = .next t := ⟨rfl, by decide, ⟨_, rfl⟩⟩
theorem witness_RxArriveEffect : ((ready 0 0 []).rxen = true ∧ (ready 0 0 []).rxc = false) ∧
    (waiting 0 0 [] 0x61).rxen = true ∧ (waiting 0 0 [] 0x61).rxc = true := by decide
theorem witness_RxArriveFrame : (∃ t, exec (.rxArrive 0x62) (ready 0 0 []) = .next t) ∧
    (waiting 0 0 [] 0x61).rxc = true ∧ ∃ t, exec (.rxArrive 0x62) (waiting 0 0 [] 0x61) = .next t :=
  ⟨⟨_, rfl⟩, rfl, ⟨_, rfl⟩⟩
/-- The not-full clause at the wrap (`head` 3, `tail` 1), the full clause at the wrap (`head` 3, `tail` 0),
and a masked handler. -/
theorem witness_IsrRxcEffect :
    ((waiting 3 1 abc 0x45).cfg.wf = true ∧ (waiting 3 1 abc 0x45).rxcTaken = true ∧
      (((waiting 3 1 abc 0x45).head.toNat + 1) &&& ((waiting 3 1 abc 0x45).cfg.N - 1)) ≠
        (waiting 3 1 abc 0x45).tail.toNat) ∧
    ((waiting 3 0 abc 0x44).cfg.wf = true ∧ (waiting 3 0 abc 0x44).rxcTaken = true ∧
      (((waiting 3 0 abc 0x44).head.toNat + 1) &&& ((waiting 3 0 abc 0x44).cfg.N - 1)) =
        (waiting 3 0 abc 0x44).tail.toNat) ∧
    masked.cfg.wf = true ∧ ¬(masked.rxc = true ∧ masked.rxcie = true ∧ masked.gie = true) := by decide
/-- For the statements over an ISR_RXC step: one that stores and one that drops. -/
theorem witness_IsrRxcStep :
    ((waiting 2 0 abc 0x44).InRange ∧ (waiting 2 0 abc 0x44).buf.wf = true ∧
      (∃ t, exec .isrRxc (waiting 2 0 abc 0x44) = .next t) ∧
      (waiting 2 0 abc 0x44).count < (waiting 2 0 abc 0x44).cfg.N - 1) ∧
    (waiting 3 0 abc 0x44).InRange ∧ (waiting 3 0 abc 0x44).buf.wf = true ∧
      (∃ t, exec .isrRxc (waiting 3 0 abc 0x44) = .next t) ∧
      (waiting 3 0 abc 0x44).count = (waiting 3 0 abc 0x44).cfg.N - 1 :=
  ⟨⟨⟨by decide, by decide, by decide⟩, by decide, ⟨_, rfl⟩, by decide⟩,
    ⟨by decide, by decide, by decide⟩, by decide, ⟨_, rfl⟩, by decide⟩
/-- A slot that holds an undelivered byte, the last of the range. -/
theorem witness_ProtectedSlots : 1 ≤ (waiting 2 0 abc 0x44).count ∧
    (waiting 2 0 abc 0x44).count = 2 := by decide
theorem witness_GbCheckEffect :
    ((ready 2 2 abc).inited = true ∧ (ready 2 2 abc).cphase = .idle ∧
      (ready 2 2 abc).tail = (ready 2 2 abc).head) ∧
    ((ready 2 0 abc).inited = true ∧ (ready 2 0 abc).cphase = .idle ∧
      (ready 2 0 abc).tail ≠ (ready 2 0 abc).head) ∧
    fresh.inited = false ∧ reading.inited = true ∧ reading.cphase ≠ .idle := by decide
theorem witness_GbAdvanceEffect :
    ({ ready 1 3 abc with cphase := .nonempty } : State).cphase = .nonempty ∧
      (ready 1 3 abc).cphase ≠ .nonempty := by decide
/-- At the last slot of the ring. -/
theorem witness_GbReadEffect :
    (({ ready 3 3 abc with cphase := .advanced } : State).cphase = .advanced ∧
      (ready 3 3 abc).slot? (ready 3 3 abc).tail.toNat = some 0x43 ∧
      (ready 3 3 abc).tail.toNat < (ready 3 3 abc).cfg.N) ∧
    (ready 3 3 abc).cphase ≠ .advanced := by decide
/-- At the first index that is no slot. -/
theorem witness_GbReadFaultsOutsideTheRing :
    let s : State := { ready 3 4 abc with cphase := .advanced }
    s.cphase = .advanced ∧ s.cfg.N ≤ s.tail.toNat := by decide
theorem witness_GetErrorEffect : fresh.cphase = .idle ∧
    decided.cphase ≠ .idle := by decide
theorem witness_ConsumerFrame : (∃ t, exec .gbCheck (ready 2 0 abc) = .next t) ∧
    (∃ t, exec .gbAdvance decided = .next t) ∧
    (∃ t, exec .gbRead reading = .next t) ∧
    ∃ t, exec .getError fresh = .next t := ⟨⟨_, rfl⟩, ⟨_, rfl⟩, ⟨_, rfl⟩, ⟨_, rfl⟩⟩
theorem witness_OneConsumerCallAtATime :
    agentOf .gbRead = .consumer ∧ decided.cphase ≠ .idle ∧
      ¬(Instr.gbRead = .gbAdvance ∧ decided.cphase = .nonempty) ∧
      ¬(Instr.gbRead = .gbRead ∧ decided.cphase = .advanced) := by decide
/-- A decision to read, then a byte that arrives before the advance; and the advance itself. -/
theorem witness_NonemptyDecisionStaysRight :
    (∃ s : State, s.InRange ∧ s.buf.wf = true ∧ (s.cphase = .nonempty → 1 ≤ s.count) ∧
      ∃ t, step s = .next t ∧ t.cphase = .nonempty) ∧
    decided.InRange ∧ decided.buf.wf = true ∧ (decided.cphase = .nonempty → 1 ≤ decided.count) ∧
      ∃ t, exec .gbAdvance decided = .next t ∧ t.count < decided.count :=
  ⟨⟨{ waiting 2 0 abc 0x44 with cphase := .nonempty, sched := [0x300] },
      ⟨by decide, by decide, by decide⟩, by decide, by decide, ⟨_, rfl, rfl⟩⟩,
    ⟨by decide, by decide, by decide⟩, by decide, by decide, ⟨_, rfl, by decide⟩⟩
theorem witness_GetByteCallEffect :
    ((ready 1 0 abc).InRange ∧ (ready 1 0 abc).inited = true ∧ (ready 1 0 abc).cphase = .idle ∧
      1 ≤ (ready 1 0 abc).count) ∧
    (ready 1 1 abc).InRange ∧ (ready 1 1 abc).inited = true ∧ (ready 1 1 abc).cphase = .idle ∧
      (ready 1 1 abc).count = 0 :=
  ⟨⟨⟨by decide, by decide, by decide⟩, rfl, rfl, by decide⟩, ⟨by decide, by decide, by decide⟩, rfl, rfl,
    by decide⟩
theorem witness_SendByteEffect :
    (sender.inited = true ∧ sender.txen = true ∧ sender.cphase = .idle ∧ sender.udre = true) ∧
    (full.inited = true ∧ full.txen = true ∧ full.cphase = .idle ∧ full.udre = false) ∧
    fresh.inited = false ∧ ((ready 0 0 []).inited = true ∧ (ready 0 0 []).txen = false) ∧
    sender.inited = true ∧ sender.txen = true ∧
      ({ sender with cphase := .nonempty } : State).cphase ≠ .idle := by decide
theorem witness_TxDrainEffect : full.txen = true ∧ full.udre = false := by decide
theorem witness_TransmitFrame : (∃ t, exec (.sendByte 0x41) sender = .next t) ∧
    ∃ t, exec .txDrain full = .next t := ⟨⟨_, rfl⟩, ⟨_, rfl⟩⟩
/-- "AB", and the empty line. -/
theorem witness_SendLineTransmitsThePayload :
    (sender.inited = true ∧ sender.txen = true ∧ sender.cphase = .idle ∧ sender.udre = true ∧
      sender.held = none) ∧ (∀ b ∈ ([0x41, 0x42] : List Byte), b ≠ 0x00) ∧
      ∀ b ∈ ([] : List Byte), b ≠ 0x00 := by decide
theorem witness_WaitingConsumerTakesNoOtherStep :
    (holding [0x700, 0x241]).held = some 0x42 ∧ (holding [0x700, 0x241]).udre = false ∧
      (holding [0x700, 0x241]).inited = true ∧ (holding [0x700, 0x241]).txen = true ∧
      (holding [0x700, 0x241]).cphase = .idle ∧ ∃ t, step (holding [0x700, 0x241]) = .next t :=
  ⟨rfl, rfl, rfl, rfl, rfl, ⟨_, rfl⟩⟩
/-- A run in which one operation is offered, and then nothing. -/
def oneStep (s t : State) (w : Cmd) : Run where
  state n := if n = 0 then s else t
  offer n := if n = 0 then [w] else []

theorem oneStep_valid {s t : State} {w : Cmd} (hs : step { s with sched := s.sched ++ [w] } = .next t)
    (ht : step t = .next t) : (oneStep s t w).valid
  | 0 => hs
  | n + 1 => by simpa [Run.offered, oneStep] using ht
/-- It is weakly fair to what that step leaves disabled. -/
theorem oneStep_fair {s t : State} {w : Cmd} {i : Instr} {enabled : State → Bool}
    (he : enabled t = false) : (oneStep s t w).weaklyFair enabled i := fun n h => by
  have := h (n + 1) (by omega)
  simp [oneStep, he] at this
theorem witness_fairIsrRxc : ∃ r : Run, r.valid ∧ r.fairIsrRxc ∧ (r.state 0).inited = true ∧
    (r.state 0).rxcTaken = true := by
  obtain ⟨t, hs, ht, he⟩ : ∃ t, step { waiting 0 0 [] 0x41 with sched := [] ++ [0x300] } = .next t ∧
      step t = .next t ∧ t.rxcTaken = false := ⟨_, rfl, rfl, rfl⟩
  exact ⟨oneStep (waiting 0 0 [] 0x41) t 0x300, oneStep_valid hs ht, oneStep_fair he, rfl, rfl⟩
theorem witness_fairTxDrain : ∃ r : Run, r.valid ∧ r.fairTxDrain ∧ (r.state 0).inited = true ∧
    (r.state 0).txPending = true := by
  obtain ⟨t, hs, ht, he⟩ : ∃ t, step { full with sched := [] ++ [0xD00] } = .next t ∧
      step t = .next t ∧ t.txPending = false := ⟨_, rfl, rfl, rfl⟩
  exact ⟨oneStep full t 0xD00, oneStep_valid hs ht, oneStep_fair he, rfl, rfl⟩

theorem witness_HoldIsLiftedByTheDrain :
    (∃ s : State, s.cfg.wf = true ∧ s.held = some 0x42 ∧ s.udre = true ∧ s.inited = true ∧
      s.txen = true ∧ s.cphase = .idle ∧ s.sched = []) ∧
    (decode 0x700#12 = .ok .getError ∧ agentOf .getError = .consumer) ∧
      decode 0x241#12 = .ok (.rxArrive 0x41) ∧ agentOf (.rxArrive 0x41) ≠ .consumer :=
  ⟨⟨{ sender with held := some 0x42 }, by decide⟩, ⟨rfl, rfl⟩, rfl, by decide⟩
theorem witness_StalledTransmitterHangs :
    (holding [0x700]).cfg.wf = true ∧ (holding [0x700]).held = some 0x42 ∧
      (holding [0x700]).udre = false ∧ (holding [0x700]).inited = true ∧
      (holding [0x700]).txen = true ∧ (holding [0x700]).cphase = .idle ∧
      ∀ w ∈ (holding [0x700]).sched, ∃ i, decode w = .ok i ∧ agentOf i = .consumer :=
  ⟨by decide, rfl, rfl, rfl, rfl, rfl, fun w hw => by
    obtain rfl := List.mem_singleton.1 hw
    exact ⟨.getError, rfl, rfl⟩⟩
/-- Both clauses where they meet, at the largest capacity. -/
theorem witness_IndexSuccessorWraps :
    Config.wf { N := 256 } = true ∧ (254#8).toNat < 256 - 1 ∧ (255#8).toNat = 256 - 1 := by decide
theorem witness_RingPredicates : (ready 2 0 abc).InRange ∧ 1 ≤ (ready 2 0 abc).count :=
  ⟨inRange_ready, by decide⟩
/-- One operation for each clause that changes its field. -/
theorem witness_OneWriterPerField :
    (∃ t, exec .isrRxc (waiting 0 0 [] 0x41) = .next t ∧ t.head ≠ 0 ∧ t.slot? 1 ≠ some 0x00) ∧
    (∃ t, exec .gbAdvance decided = .next t ∧ t.tail ≠ 0) ∧
    (∃ t, exec .isrRxc (waiting 3 0 abc 0x44) = .next t ∧ t.lastError ≠ 0) ∧
    ∃ t, exec .initRxIrq fresh = .next t ∧ t.gie ≠ false :=
  ⟨⟨_, rfl, by decide, by decide⟩, ⟨_, rfl, by decide⟩, ⟨_, rfl, by decide⟩, ⟨_, rfl, by decide⟩⟩
theorem witness_HeadIsReadOnlyInTheWindow :
    Instr.gbAdvance ≠ .reset ∧ Instr.gbAdvance ≠ .gbCheck ∧ Instr.gbAdvance ≠ .isrRxc := by decide
theorem witness_GhostsAreNotRead :
    (ready 2 0 abc).blankUnread =
      ({ ready 2 0 abc with hwOverrun := true, returned := [.getByte 0x41] } : State).blankUnread := rfl
theorem witness_OverflowFlagIsSticky :
    let s : State := { ready 3 0 abc with lastError := 0xFF }
    Instr.getError ≠ .reset ∧ s.lastError = s.cfg.errFull ∧ ∃ t, exec .getError s = .next t :=
  ⟨by decide, rfl, ⟨_, rfl⟩⟩
theorem witness_StorageStaysCanonical :
    let s : State := { waiting 3 1 abc 0x45 with sched := [0x300] }
    s.StorageOk ∧ ∃ t, step s = .next t := ⟨⟨by decide, by decide⟩, ⟨_, rfl⟩⟩
theorem witness_IndicesStayInRange :
    let s : State := { waiting 3 1 abc 0x45 with sched := [0x300] }
    s.InRange ∧ ∃ t, step s = .next t := ⟨⟨by decide, by decide, by decide⟩, ⟨_, rfl⟩⟩

/-- A state in the middle of a run: two bytes accepted, one of them delivered, a third waiting, the next word
the handler's. -/
def middle : State :=
  { waiting 2 1 [(1, 0x41), (2, 0x42)] 0x43 with
    obs := { arrived := [0x41, 0x42, 0x43], latched := [0x41, 0x42, 0x43], accepted := [0x41, 0x42],
             delivered := [0x41] }
    sched := [0x300] }

theorem inv_middle : middle.Inv :=
  ⟨⟨by decide, by decide⟩, ⟨⟨by decide, by decide, by decide⟩, by decide, by decide, by decide, by decide⟩,
    ⟨by decide, by decide, by decide, by decide, by decide, by decide, by decide, by decide⟩,
    fun h => absurd h (by decide),
    ⟨by decide, by decide, by decide, by decide, by decide⟩⟩

/-- For RingInvariantIsKept, ModeStaysLegal and EveryByteIsAccountedFor. -/
theorem witness_InvariantSteps : middle.StorageOk ∧ middle.RingInv ∧ middle.PortInv ∧ middle.HeldInv ∧
    middle.TraceInv ∧ ∃ t, step middle = .next t :=
  ⟨inv_middle.storage, inv_middle.ring, inv_middle.port, inv_middle.held, inv_middle.trace, ⟨_, rfl⟩⟩
/-- The smallest and the largest capacity. -/
theorem witness_ResetMeetsEveryInvariant : Config.wf { N := 2 } = true ∧ Config.wf { N := 256 } = true := by
  decide
/-- A run of two words from reset (P1's first two). -/
theorem witness_EveryRunMeetsEveryInvariant : Config.wf { N := 4 } = true ∧
    ∃ t, Host.Core.run core 2 (State.resetIn { N := 4 } [0x000, 0x100]) = .next t :=
  ⟨by decide, ⟨_, rfl⟩⟩
theorem witness_DeliveryKeepsArrivalOrder : middle.Inv ∧ ∃ t, step middle = .next t :=
  ⟨inv_middle, ⟨_, rfl⟩⟩
/-- The end of P1: everything that arrived was delivered. -/
def finished : State :=
  { ready 2 2 [(1, 0x41), (2, 0x42)] with
    obs := { arrived := [0x41, 0x42], latched := [0x41, 0x42], accepted := [0x41, 0x42],
             delivered := [0x41, 0x42] } }
theorem witness_NoLossUnderTheLaunchPremises : finished.RingInv ∧ finished.TraceInv ∧
    finished.hwOverrun = false ∧ finished.obs.dropped = [] ∧ finished.Quiescent ∧
    finished.head = finished.tail :=
  ⟨⟨⟨by decide, by decide, by decide⟩, by decide, by decide, by decide, by decide⟩,
    ⟨by decide, by decide, by decide, by decide, by decide⟩, rfl, rfl,
    ⟨rfl, rfl, .inl rfl, fun _ hw => by simp [finished, ready, fresh, State.reset] at hw⟩, rfl⟩
/-- Each of the four clauses. -/
theorem witness_RingRefinesABoundedFifo :
    ((waiting 3 0 abc 0x44).InRange ∧ (waiting 3 0 abc 0x44).StorageOk ∧
      ∃ t, exec .isrRxc (waiting 3 0 abc 0x44) = .next t) ∧
    (∃ t, exec .gbAdvance decided = .next t) ∧
    (∃ t, exec .gbRead reading = .next t) ∧
    (∃ t, exec .gbCheck (ready 2 2 abc) = .next t) ∧
    (ready 2 0 abc).InRange ∧ (ready 2 0 abc).StorageOk ∧ 1 ≤ (ready 2 0 abc).count :=
  ⟨⟨⟨by decide, by decide, by decide⟩, ⟨by decide, by decide⟩, ⟨_, rfl⟩⟩, ⟨_, rfl⟩, ⟨_, rfl⟩, ⟨_, rfl⟩,
    inRange_ready, storageOk_ready, by decide⟩
/-- For CapacityIsOneLessThanN and KeepingUpLosesNothing. -/
theorem witness_EmptyAndArmed : (ready 3 3 abc).InRange ∧ (ready 3 3 abc).StorageOk ∧
    (ready 3 3 abc).Armed ∧ (ready 3 3 abc).inited = true ∧ (ready 3 3 abc).cphase = .idle ∧
    (ready 3 3 abc).head = (ready 3 3 abc).tail :=
  ⟨⟨by decide, by decide, by decide⟩, ⟨by decide, by decide⟩, ⟨rfl, rfl, rfl, rfl⟩, rfl, rfl, rfl⟩
theorem witness_DrainingReturnsTheBytesInOrder : (ready 2 0 abc).InRange ∧ (ready 2 0 abc).inited = true ∧
    (ready 2 0 abc).cphase = .idle ∧ (ready 2 0 abc).queue = [0x41, 0x42] :=
  ⟨inRange_ready, rfl, rfl, by decide⟩

end Sys2Proof.Tests
end

/-! The family of spec/00_scope.md: what a step leaves alone, what it does not read, the bytes it accounts
for, and the configurations it refuses. -/

section

namespace Sys2Proof.Machine

variable {s t : State}

/-! ### Configuration and schedule -/

/-- No operation touches the configuration or the schedule; only the fetch takes a word. -/
theorem exec_cfg_sched {i : Instr} (h : exec i s = .next t) : t.cfg = s.cfg ∧ t.sched = s.sched := by
  cases i with
  | reset => obtain rfl := exec_reset_next.1 h; simp
  | initRxIrq => obtain ⟨-, -, rfl⟩ := exec_initRxIrq_next.1 h; simp
  | initTxOnly => obtain ⟨-, -, rfl⟩ := exec_initTxOnly_next.1 h; simp
  | initRxPolled => obtain ⟨-, -, rfl⟩ := exec_initRxPolled_next.1 h; simp
  | initTxrxPolled => obtain ⟨-, -, rfl⟩ := exec_initTxrxPolled_next.1 h; simp
  | rxArrive b => obtain ⟨-, rfl⟩ | ⟨-, -, rfl⟩ | ⟨-, -, rfl⟩ := exec_rxArrive_next.1 h <;> simp
  | isrRxc => obtain ⟨-, ⟨-, rfl⟩ | ⟨-, -, rfl⟩⟩ := exec_isrRxc_next.1 h <;> simp
  | isrTxc => obtain rfl := exec_isrTxc_next.1 h; simp
  | gbCheck => obtain ⟨-, -, ⟨-, rfl⟩ | ⟨-, rfl⟩⟩ := exec_gbCheck_next.1 h <;> simp
  | gbAdvance => obtain ⟨-, rfl⟩ := exec_gbAdvance_next.1 h; simp
  | gbRead => obtain ⟨-, -, rfl⟩ := exec_gbRead_next.1 h; simp
  | getError => obtain ⟨-, rfl⟩ := exec_getError_next.1 h; simp
  | sendByte b => obtain ⟨-, ⟨-, rfl⟩ | ⟨-, rfl⟩⟩ := exec_sendByte_next.1 h <;> simp
  | txDrain => obtain ⟨-, rfl⟩ | ⟨-, rfl⟩ := exec_txDrain_next.1 h <;> simp

/-- Settles O8: the fetch takes at most one word, and the operation it runs leaves the rest of the
schedule and the configuration alone. -/
theorem stepKeepsConfigurationAndTakesOneWord : Obligations.StepKeepsConfigurationAndTakesOneWord := by
  intro s t h
  rcases step_next h with ⟨-, rfl⟩ | ⟨i, s', hf, he⟩
  · exact ⟨rfl, .inl rfl⟩
  · obtain ⟨hcfg, hsched⟩ := exec_cfg_sched he
    rcases (fetch_run hf).2 with ⟨-, w, ws, hw, -, rfl⟩ | ⟨b, -, -, rfl⟩ |
      ⟨-, -, pre, w, post, hw, -, rfl⟩
    · exact ⟨hcfg, .inr ⟨[], w, ws, hw, hsched⟩⟩
    · exact ⟨hcfg, .inl hsched⟩
    · exact ⟨hcfg, .inr ⟨pre, w, post, hw, hsched⟩⟩

/-! ### What no operation reads -/

/-- The initialisation reads nothing that `blankUnread` blanks, if its body does not. -/
theorem runInit_blankUnread (f : State → State)
    (hf : ∀ s, (f s.blankUnread).markInited.blankUnread = (f s).markInited.blankUnread) (s : State) :
    mapNext State.blankUnread (runInit s.blankUnread f) = mapNext State.blankUnread (runInit s f) := by
  have hnext : mapNext State.blankUnread (.next (f s.blankUnread).markInited) =
      mapNext State.blankUnread (.next (f s).markInited) := congrArg Host.Outcome.next (hf s)
  simp only [runInit, apply_ite (mapNext State.blankUnread), hnext]
  rfl

/-- The handler's full test, store and publication read nothing that `blankUnread` blanks. -/
theorem push_blankUnread (s : State) (b : Byte) :
    (s.blankUnread.push b).map State.blankUnread = (s.push b).map State.blankUnread := by
  simp only [State.push, State.storeSlot, apply_ite (Option.map _), Option.map_some, Option.map_none]
  rfl

/-- The handler takes the interrupt, reads the data register and pushes alike, whatever was blanked. -/
theorem exec_isrRxc_blankUnread (s : State) :
    mapNext State.blankUnread (exec .isrRxc s.blankUnread) =
      mapNext State.blankUnread (exec .isrRxc s) := by
  have htaken : s.blankUnread.rxcTaken = s.rxcTaken := rfl
  have hdata : s.blankUnread.rxData = s.rxData := rfl
  have hread : s.blankUnread.enterInterrupt.afterDataRead =
      s.enterInterrupt.afterDataRead.blankUnread := rfl
  have hpush := push_blankUnread s.enterInterrupt.afterDataRead s.rxData
  simp only [exec, execIsrRxc, apply_ite (mapNext State.blankUnread), htaken, hdata, hread]
  congr 1
  generalize s.enterInterrupt.afterDataRead.blankUnread.push s.rxData = pushed' at hpush ⊢
  generalize s.enterInterrupt.afterDataRead.push s.rxData = pushed at hpush ⊢
  rcases pushed' with _ | u' <;> rcases pushed with _ | u
  · rfl
  · cases hpush
  · cases hpush
  · exact congrArg (fun v : State => Host.Outcome.next v.returnInterrupt) (Option.some.inj hpush)

/-- Blanking what no rule reads before an operation makes no difference to its kind of outcome or to the
rest of its next state. -/
theorem exec_blankUnread (i : Instr) (s : State) :
    mapNext State.blankUnread (exec i s.blankUnread) = mapNext State.blankUnread (exec i s) := by
  cases i with
  | reset => rfl
  | initRxIrq => exact runInit_blankUnread (fun s => (s.configure true false true).unmask) (fun _ => rfl) s
  | initTxOnly => exact runInit_blankUnread (fun s => s.configure false true false) (fun _ => rfl) s
  | initRxPolled => exact runInit_blankUnread (fun s => s.configure true false false) (fun _ => rfl) s
  | initTxrxPolled => exact runInit_blankUnread (fun s => s.configure true true false) (fun _ => rfl) s
  | rxArrive b => simp only [exec, execRxArrive, apply_ite (mapNext State.blankUnread)]; rfl
  | isrRxc => exact exec_isrRxc_blankUnread s
  | isrTxc => simp only [exec, execIsrTxc, apply_ite (mapNext State.blankUnread)]; rfl
  | gbCheck => simp only [exec, execGbCheck, apply_ite (mapNext State.blankUnread)]; rfl
  | gbAdvance => simp only [exec, execGbAdvance, apply_ite (mapNext State.blankUnread)]; rfl
  | gbRead =>
    have hslot : s.blankUnread.slot? s.blankUnread.tail.toNat = s.slot? s.tail.toNat := rfl
    simp only [exec, execGbRead, apply_ite (mapNext State.blankUnread), hslot]
    cases s.slot? s.tail.toNat <;> rfl
  | getError => simp only [exec, execGetError, apply_ite (mapNext State.blankUnread)]; rfl
  | sendByte b => simp only [exec, execSendByte, apply_ite (mapNext State.blankUnread)]; rfl
  | txDrain => simp only [exec, execTxDrain, apply_ite (mapNext State.blankUnread)]; rfl

/-- Settles O46: both runs agree with the run from the blanked state. -/
theorem ghostsAreNotRead : Obligations.GhostsAreNotRead := by
  intro i s s' h
  rw [← exec_blankUnread i s, h, exec_blankUnread]

/-! ### The observation invariant -/

/-- The part of a state that the observation invariant looks at. -/
def State.receiveView (s : State) :
    List Byte × List Byte × List Byte × List Byte × Bool × Bool × Byte :=
  (s.obs.arrived, s.obs.latched, s.obs.accepted, s.obs.dropped, s.hwOverrun, s.rxc, s.rxData)

/-- An update leaves the invariant alone where `simp` finds that part unchanged. -/
theorem State.TraceInv.congr (h : s.TraceInv)
    (hv : t.receiveView = s.receiveView := by simp [State.receiveView]) : t.TraceInv := by
  simp only [State.receiveView, Prod.mk.injEq] at hv
  obtain ⟨har, hla, hac, hdr, hov, hrxc, hdata⟩ := hv
  have hp := pending_congr hrxc hdata
  obtain ⟨hacc, hain, hdin, hlin, hloss⟩ := h
  constructor <;> simpa only [har, hla, hac, hdr, hov, hp]

theorem pending_of_rxc (h : s.rxc = true) : s.pending = [s.rxData] := by simp [State.pending, h]

theorem pending_of_not_rxc (h : s.rxc = false) : s.pending = [] := by simp [State.pending, h]

theorem State.TraceInv.powerOn (s : State) : s.powerOn.TraceInv := by
  constructor <;> simp [pending_of_not_rxc (s := s.powerOn) rfl]

/-- R101, first branch: the byte goes to the end of what arrived, of what was kept, and of what waits. -/
theorem State.TraceInv.latch (h : s.TraceInv) (hr : s.rxc = false) (b : Byte) :
    (s.latch b).TraceInv := by
  obtain ⟨hacc, hain, hdin, hlin, hloss⟩ := h
  have hp : (s.latch b).pending = [b] := rfl
  rw [pending_of_not_rxc hr, List.append_nil] at hacc hain hdin
  refine ⟨?_, ?_, ?_, ?_, ?_⟩
  · simpa [hp] using hacc.append_right [b]
  · simpa [hp] using hain
  · simpa [hp] using hdin
  · simpa using hlin
  · simpa using hloss

/-- R101, second branch: what arrived grows past what was kept, and the ghost says so. -/
theorem State.TraceInv.loseByte (h : s.TraceInv) (b : Byte) : (s.loseByte b).TraceInv := by
  obtain ⟨hacc, hain, hdin, hlin, -⟩ := h
  refine ⟨hacc, hain, hdin, hlin.trans (List.sublist_append_left _ _), ?_⟩
  have hle := hlin.length_le
  simp only [State.loseByte_hwOverrun, State.loseByte_obs, List.length_append, List.length_singleton,
    true_iff]
  omega

/-- R104, R105: the byte that waited is now one that was dropped. -/
theorem State.TraceInv.dropWaiting (h : s.TraceInv) (hr : s.rxc = true)
    (hrt : t.rxc = false) (hobs : t.obs = { s.obs with dropped := s.obs.dropped ++ [s.rxData] })
    (hov : t.hwOverrun = s.hwOverrun) : t.TraceInv := by
  obtain ⟨hacc, hain, hdin, hlin, hloss⟩ := h
  rw [pending_of_rxc hr] at hacc hain hdin
  have hp := pending_of_not_rxc hrt
  refine ⟨?_, ?_, ?_, ?_, ?_⟩ <;> simp only [hobs, hp, hov, List.append_nil]
  · simpa using hacc
  · exact (List.sublist_append_left _ _).trans hain
  · exact hdin
  · exact hlin
  · exact hloss

/-- R104, R106: the byte that waited is now one that was stored. -/
theorem State.TraceInv.acceptWaiting (h : s.TraceInv) (hr : s.rxc = true)
    (hrt : t.rxc = false) (hobs : t.obs = { s.obs with accepted := s.obs.accepted ++ [s.rxData] })
    (hov : t.hwOverrun = s.hwOverrun) : t.TraceInv := by
  obtain ⟨hacc, hain, hdin, hlin, hloss⟩ := h
  rw [pending_of_rxc hr] at hacc hain hdin
  have hp := pending_of_not_rxc hrt
  refine ⟨?_, ?_, ?_, ?_, ?_⟩ <;> simp only [hobs, hp, hov, List.append_nil]
  · refine hacc.trans ?_
    rw [List.append_assoc, List.append_assoc]
    exact List.perm_append_comm.append_left _
  · exact hain
  · exact (List.sublist_append_left _ _).trans hdin
  · exact hlin
  · exact hloss

/-- Only RESET, RX_ARRIVE and ISR_RXC touch what the observation invariant speaks of. -/
theorem exec_traceInv (i : Instr) (s t : State) (hs : s.TraceInv) (h : exec i s = .next t) :
    t.TraceInv := by
  cases i with
  | reset => obtain rfl := exec_reset_next.1 h; exact .powerOn s
  | rxArrive b =>
    obtain ⟨-, rfl⟩ | ⟨-, hr, rfl⟩ | ⟨-, -, rfl⟩ := exec_rxArrive_next.1 h
    · exact hs
    · exact hs.latch hr b
    · exact hs.loseByte b
  | isrRxc =>
    obtain ⟨⟨hr, -, -⟩, ⟨-, rfl⟩ | ⟨-, -, rfl⟩⟩ := exec_isrRxc_next.1 h
    · exact hs.dropWaiting hr rfl rfl rfl
    · exact hs.acceptWaiting hr rfl rfl rfl
  | initRxIrq => obtain ⟨-, -, rfl⟩ := exec_initRxIrq_next.1 h; exact hs.congr
  | initTxOnly => obtain ⟨-, -, rfl⟩ := exec_initTxOnly_next.1 h; exact hs.congr
  | initRxPolled => obtain ⟨-, -, rfl⟩ := exec_initRxPolled_next.1 h; exact hs.congr
  | initTxrxPolled => obtain ⟨-, -, rfl⟩ := exec_initTxrxPolled_next.1 h; exact hs.congr
  | isrTxc => obtain rfl := exec_isrTxc_next.1 h; exact hs
  | gbCheck =>
    obtain ⟨-, -, ⟨-, rfl⟩ | ⟨-, rfl⟩⟩ := exec_gbCheck_next.1 h <;> exact hs.congr
  | gbAdvance => obtain ⟨-, rfl⟩ := exec_gbAdvance_next.1 h; exact hs.congr
  | gbRead => obtain ⟨-, -, rfl⟩ := exec_gbRead_next.1 h; exact hs.congr
  | getError => obtain ⟨-, rfl⟩ := exec_getError_next.1 h; exact hs.congr
  | sendByte b =>
    obtain ⟨-, ⟨-, rfl⟩ | ⟨-, rfl⟩⟩ := exec_sendByte_next.1 h <;> exact hs.congr
  | txDrain =>
    obtain ⟨-, rfl⟩ | ⟨-, rfl⟩ := exec_txDrain_next.1 h
    · exact hs.congr
    · exact hs

/-- Settles O52: every operation keeps the invariant, and it does not look at the schedule. -/
theorem everyByteIsAccountedFor : Obligations.EveryByteIsAccountedFor := fun _ _ =>
  step_keeps (fun _ _ hs => hs.congr) exec_traceInv

/-! ### Ill-formed configurations -/

theorem step_of_not_wf (h : s.cfg.wf = false) : step s = .refused .badConfig := by
  simp [step, State.fetch, h]

theorem receiver_depth_pos {c : Config} (h : c.wf = true) : 1 ≤ c.rxHwDepth := by
  simp only [Config.wf, Config.receiverHoldsAByte, Bool.and_eq_true, decide_eq_true_eq] at h
  exact h.1.2

theorem fixedValues_of_wf {c : Config} (h : c.wf = true) : c.fixedValues = true := by
  simp only [Config.wf, Bool.and_eq_true] at h
  exact h.2

/-- Settles O6: each of the causes contradicts a fact about well-formed configurations. -/
theorem illFormedConfigurationIsRefused : Obligations.IllFormedConfigurationIsRefused := by
  intro s hbad
  refine step_of_not_wf (Bool.eq_false_iff.2 fun hwf => ?_)
  rcases hbad with hpow | hlow | hhigh | hcodes | hdepth | hfixed
  · obtain ⟨k, -, -, hN⟩ := capacity_cases hwf
    exact hpow k hN
  · exact absurd (capacity_ge hwf) (by omega)
  · exact absurd (capacity_le hwf) (by omega)
  · exact codes_differ hwf hcodes
  · exact absurd (receiver_depth_pos hwf) (by omega)
  · simp [fixedValues_of_wf hwf] at hfixed

end Sys2Proof.Machine
end

/-! The family of spec/10_state.md: what an operation does to the ring, the range of the indices, the storage,
the modes of the interface, and the invariants of every run. -/

section

namespace Sys2Proof.Machine

variable {s t : State} {i : Instr}

/-! ### What an operation does to the ring -/

/-- `t` holds the same ring as `s`: everything that the range, storage and ring invariants speak of. -/
structure State.SameRing (s t : State) : Prop where
  cfg : t.cfg = s.cfg := by simp
  buf : t.buf = s.buf := by simp
  head : t.head = s.head := by simp
  tail : t.tail = s.tail := by simp
  lastError : t.lastError = s.lastError := by simp
  cphase : t.cphase = s.cphase := by simp
  accepted : t.obs.accepted = s.obs.accepted := by simp
  delivered : t.obs.delivered = s.obs.delivered := by simp
  dropped : t.obs.dropped = s.obs.dropped := by simp

/-- Everything an operation that answers a next state can do to the ring. -/
inductive RingStep (s : State) : Instr → State → Prop
  /-- RESET (R185) -/
  | powerOn : RingStep s .reset s.powerOn
  /-- ISR_RXC on a full ring (R105) -/
  | drop (full : s.isFull = true) :
      RingStep s .isrRxc (s.enterInterrupt.afterDataRead.raiseOverflow s.rxData).returnInterrupt
  /-- ISR_RXC with a free slot (R106) -/
  | store (free : s.isFull = false) (slot : s.candidateHead.toNat < s.cfg.N) :
      RingStep s .isrRxc ((s.enterInterrupt.afterDataRead.setSlot s.candidateHead.toNat s.rxData).publishHead
        s.candidateHead s.rxData).returnInterrupt
  /-- GB_CHECK on a non-empty ring (R116) -/
  | check (phase : s.cphase = .idle) (nonempty : s.isEmpty = false) :
      RingStep s .gbCheck (s.setPhase .nonempty)
  /-- GB_ADVANCE (R117) -/
  | advance (phase : s.cphase = .nonempty) : RingStep s .gbAdvance (s.advanceTail.setPhase .advanced)
  /-- GB_READ (R118) -/
  | read (phase : s.cphase = .advanced) :
      RingStep s .gbRead (((s.setPhase .idle).deliver (s.buf.read s.tail.toNat)).handBack
        (.getByte (s.buf.read s.tail.toNat)))
  /-- every other operation, and GB_CHECK on an empty ring -/
  | same {i : Instr} {t : State} (ring : s.SameRing t) : RingStep s i t

theorem exec_ringStep (h : exec i s = .next t) : RingStep s i t := by
  cases i with
  | reset => obtain rfl := exec_reset_next.1 h; exact .powerOn
  | isrRxc =>
    obtain ⟨-, ⟨hfull, rfl⟩ | ⟨hfree, hslot, rfl⟩⟩ := exec_isrRxc_next.1 h
    · exact .drop hfull
    · exact .store hfree hslot
  | gbCheck =>
    obtain ⟨-, hp, ⟨-, rfl⟩ | ⟨hne, rfl⟩⟩ := exec_gbCheck_next.1 h
    · exact .same {}
    · exact .check hp hne
  | gbAdvance => obtain ⟨hp, rfl⟩ := exec_gbAdvance_next.1 h; exact .advance hp
  | gbRead => obtain ⟨hp, -, rfl⟩ := exec_gbRead_next.1 h; exact .read hp
  | getError => obtain ⟨-, rfl⟩ := exec_getError_next.1 h; exact .same {}
  | initRxIrq => obtain ⟨-, -, rfl⟩ := exec_initRxIrq_next.1 h; exact .same {}
  | initTxOnly => obtain ⟨-, -, rfl⟩ := exec_initTxOnly_next.1 h; exact .same {}
  | initRxPolled => obtain ⟨-, -, rfl⟩ := exec_initRxPolled_next.1 h; exact .same {}
  | initTxrxPolled => obtain ⟨-, -, rfl⟩ := exec_initTxrxPolled_next.1 h; exact .same {}
  | rxArrive b =>
    obtain ⟨-, rfl⟩ | ⟨-, -, rfl⟩ | ⟨-, -, rfl⟩ := exec_rxArrive_next.1 h <;> exact .same {}
  | isrTxc => obtain rfl := exec_isrTxc_next.1 h; exact .same {}
  | sendByte b =>
    obtain ⟨-, ⟨-, rfl⟩ | ⟨-, rfl⟩⟩ := exec_sendByte_next.1 h <;> exact .same {}
  | txDrain => obtain ⟨-, rfl⟩ | ⟨-, rfl⟩ := exec_txDrain_next.1 h <;> exact .same {}

/-! ### Which operation a step runs -/

/-- With a call waiting, the fetch finds a word of another agent or the call itself. -/
theorem step_exec (h : step s = .next t) :
    t = s ∨ ∃ i ws, (s.held = none ∨ agentOf i ≠ .consumer ∨ ∃ b, i = .sendByte b) ∧
      exec i { s with sched := ws } = .next t := by
  rcases step_next h with ⟨-, rfl⟩ | ⟨i, s', hf, he⟩
  · exact .inl rfl
  · rcases (fetch_run hf).2 with ⟨hh, -, ws, -, -, rfl⟩ | ⟨b, -, hi, rfl⟩ |
      ⟨-, ha, pre, -, post, -, -, rfl⟩
    · exact .inr ⟨i, ws, .inl hh, he⟩
    · exact .inr ⟨i, s'.sched, .inr (.inr ⟨b, hi⟩), he⟩
    · exact .inr ⟨i, pre ++ post, .inr (.inl ha), he⟩

/-- A step faults only where the operation it runs does. -/
theorem step_fault {f : Fault} (h : step s = .fault f) :
    ∃ i ws, exec i { s with sched := ws } = .fault f := by
  unfold step at h
  split at h
  · cases h
  · cases h
  · next i s' hf =>
    rcases (fetch_run hf).2 with ⟨-, -, ws, -, -, rfl⟩ | ⟨-, -, -, rfl⟩ |
      ⟨-, -, pre, -, post, -, -, rfl⟩
    · exact ⟨i, ws, h⟩
    · exact ⟨i, s'.sched, h⟩
    · exact ⟨i, pre ++ post, h⟩

/-- A run faults only in a step from a state it reached: none does, if what every step keeps excludes it. -/
theorem run_ne_fault {P : State → Prop} (hstep : ∀ s t, P s → step s = .next t → P t)
    (hsafe : ∀ s f, P s → step s ≠ .fault f) (n : Nat) (hs : P s) (f : Fault) :
    Host.Core.run core n s ≠ .fault f := by
  induction n generalizing s with
  | zero => rw [run_zero]; exact nofun
  | succ n ih =>
    cases he : step s with
    | next s' => rw [run_next n he]; exact ih (hstep _ _ hs he)
    | fault g => exact absurd he (hsafe s g hs)
    | refused r => rw [run_refused n he]; exact nofun

/-! ### The range of the indices -/

theorem State.InRange.candidateHead_lt (h : s.InRange) : s.candidateHead.toNat < s.cfg.N :=
  indexSucc_in_ring h.cfgWf _

theorem State.InRange.congr (h : s.InRange) (hr : s.SameRing t) : t.InRange := by
  constructor
  · exact hr.cfg ▸ h.cfgWf
  · rw [hr.head, hr.cfg]; exact h.headIn
  · rw [hr.tail, hr.cfg]; exact h.tailIn

/-- Both indices 0 are in any ring. -/
theorem inRange_of_zero (hc : s.cfg.wf = true) (hh : s.head = 0) (ht : s.tail = 0) : s.InRange := by
  have hN := capacity_ge hc
  constructor
  · exact hc
  · simp only [hh, BitVec.ofNat_eq_ofNat, BitVec.toNat_ofNat]; omega
  · simp only [ht, BitVec.ofNat_eq_ofNat, BitVec.toNat_ofNat]; omega

/-- An index moves only to a successor or to 0. -/
theorem exec_inRange (hs : s.InRange) (h : exec i s = .next t) : t.InRange := by
  cases exec_ringStep h with
  | powerOn => exact inRange_of_zero hs.cfgWf rfl rfl
  | store _ hslot => exact ⟨hs.cfgWf, hslot, hs.tailIn⟩
  | advance => exact ⟨hs.cfgWf, hs.headIn, indexSucc_in_ring hs.cfgWf _⟩
  | drop | check | read => exact ⟨hs.cfgWf, hs.headIn, hs.tailIn⟩
  | same hr => exact hs.congr hr

theorem step_inRange (hs : s.InRange) (h : step s = .next t) : t.InRange :=
  step_keeps (fun _ _ hs => hs.congr {}) (fun _ _ _ => exec_inRange) hs h

/-- The handler stores inside the ring (R106), so it does not fault. -/
theorem execIsrRxc_ne_fault (hs : s.InRange) (f : Fault) : execIsrRxc s ≠ .fault f := by
  have hslot : s.enterInterrupt.afterDataRead.candidateHead.toNat <
      s.enterInterrupt.afterDataRead.cfg.N := hs.candidateHead_lt
  unfold execIsrRxc
  cases hf : s.enterInterrupt.afterDataRead.isFull
  · rw [push_free hf hslot]; split <;> exact nofun
  · rw [push_full hf]; split <;> exact nofun

theorem slot?_of_lt {a : Nat} (h : a < s.cfg.N) : s.slot? a = some (s.buf.read a) := if_pos h

theorem slot?_of_ge {a : Nat} (h : s.cfg.N ≤ a) : s.slot? a = none := if_neg (Nat.not_lt.2 h)

/-- GB_READ reads inside the ring (R118), so it does not fault. -/
theorem execGbRead_ne_fault (hs : s.InRange) (f : Fault) : execGbRead s ≠ .fault f := by
  rw [execGbRead, slot?_of_lt hs.tailIn]
  split <;> exact nofun

theorem runInit_ne_fault (body : State → State) (f : Fault) : runInit s body ≠ .fault f := by
  unfold runInit
  split_ifs <;> exact nofun

/-- Only the two operations that access a slot can fault at all. -/
theorem exec_ne_fault (hs : s.InRange) (i : Instr) (f : Fault) : exec i s ≠ .fault f := by
  cases i with
  | isrRxc => exact execIsrRxc_ne_fault hs f
  | gbRead => exact execGbRead_ne_fault hs f
  | initRxIrq => exact runInit_ne_fault (fun s => (s.configure true false true).unmask) f
  | initTxOnly => exact runInit_ne_fault (fun s => s.configure false true false) f
  | initRxPolled => exact runInit_ne_fault (fun s => s.configure true false false) f
  | initTxrxPolled => exact runInit_ne_fault (fun s => s.configure true true false) f
  | reset => exact nofun
  | rxArrive b => simp only [exec, execRxArrive]; split_ifs <;> exact nofun
  | isrTxc => simp only [exec, execIsrTxc]; split_ifs <;> exact nofun
  | gbCheck => simp only [exec, execGbCheck]; split_ifs <;> exact nofun
  | gbAdvance => simp only [exec, execGbAdvance]; split_ifs <;> exact nofun
  | getError => simp only [exec, execGetError]; split_ifs <;> exact nofun
  | sendByte b => simp only [exec, execSendByte]; split_ifs <;> exact nofun
  | txDrain => simp only [exec, execTxDrain]; split_ifs <;> exact nofun

theorem step_ne_fault (hs : s.InRange) (f : Fault) : step s ≠ .fault f := by
  intro h
  obtain ⟨i, ws, he⟩ := step_fault h
  exact exec_ne_fault (s := { s with sched := ws }) (hs.congr {}) i f he

/-- Settles O49: an index moves only to a successor or to 0, and both accesses use an index. -/
theorem indicesStayInRange : Obligations.IndicesStayInRange :=
  ⟨⟨by decide, by decide, by decide⟩, fun _ _ => step_inRange, fun _ f hs => step_ne_fault hs f⟩

/-- Settles O29: `tail` names no slot. -/
theorem gbReadFaultsOutsideTheRing : Obligations.GbReadFaultsOutsideTheRing := by
  intro s hp htail
  simp only [exec, execGbRead, if_pos hp, slot?_of_ge htail]

/-! ### The derived predicates -/

/-- The count is the difference of the indices modulo `N` (R25). -/
theorem count_eq_emod (h : s.InRange) :
    (s.count : Int) = ((s.head.toNat : Int) - s.tail.toNat) % s.cfg.N := by
  have htail := h.tailIn
  rw [State.count, Int.natCast_emod, Nat.cast_sub (by omega), Nat.cast_add, add_sub_right_comm,
    Int.add_emod_right]

/-- The newest byte lies in slot `head` (R25, conflict C5). -/
theorem slotAfterTail_count (h : s.InRange) : s.slotAfterTail s.count = s.head.toNat := by
  have hhead := h.headIn
  have hlt := count_lt h
  rw [slotAfterTail_eq h.cfgWf, wrap h.tailIn hlt.le]
  have htail := h.tailIn
  rcases count_cases h with ⟨hle, hc⟩ | ⟨hgt, hc⟩ <;> split <;> omega

/-- The `k`-th undelivered byte, the oldest at 1, lies in the `k`-th slot after `tail` (R25). -/
theorem queue_getElem? (h : s.InRange) {k : Nat} (hk : 1 ≤ k) (hle : k ≤ s.count) :
    s.queue[k - 1]? = s.slot? (s.slotAfterTail k) := by
  rw [slot?_of_lt (a := s.slotAfterTail k) (and_mask_lt h.cfgWf _), State.queue, List.getElem?_map,
    List.getElem?_range (by omega), Option.map_some, Nat.sub_add_cancel hk]

/-- Settles O43, by the ring's arithmetic: the mask is the modulus, and the count is the wrapped difference. -/
theorem ringPredicates : Obligations.RingPredicates := by
  intro s h
  have hempty : s.head = s.tail ↔ s.count = 0 := by
    rw [← isEmpty_iff h, State.isEmpty, beq_iff_eq]
  have hfull : ((s.head.toNat + 1) &&& (s.cfg.N - 1)) = s.tail.toNat ↔ s.count = s.cfg.N - 1 := by
    rw [← isFull_iff h, State.isFull, beq_iff_eq, ← BitVec.toNat_inj, State.candidateHead,
      indexSucc_val h.cfgWf, ← and_mask h.cfgWf, Config.mask]
  exact ⟨hempty, hfull, Nat.le_sub_one_of_lt (count_lt h), count_eq_emod h, slotAfterTail_count h,
    queue_length s, fun _ => queue_getElem? h⟩

/-! ### The overflow flag and the storage -/

/-- Settles O47: the one operation but RESET that writes the flag raises it. -/
theorem overflowFlagIsSticky : Obligations.OverflowFlagIsSticky := by
  intro i s t hi hfull h
  cases exec_ringStep h with
  | powerOn => exact absurd rfl hi
  | drop => rfl
  | store | check | advance | read => exact hfull
  | same hr => rw [hr.lastError, hr.cfg, hfull]

theorem storageOk_of_nil (h : s.buf = []) : s.StorageOk := by
  constructor <;> rw [h] <;> rfl

/-- Only the handler writes a slot, one of the ring's. -/
theorem exec_storageOk (hs : s.StorageOk) (h : exec i s = .next t) : t.StorageOk := by
  cases exec_ringStep h with
  | powerOn => exact storageOk_of_nil rfl
  | store _ hslot => exact ⟨Memory.write_wf hs.canonical _ _, Memory.write_below hs.inRing hslot⟩
  | drop | check | advance | read => exact ⟨hs.canonical, hs.inRing⟩
  | same hr =>
    constructor
    · rw [hr.buf]; exact hs.canonical
    · rw [hr.buf, hr.cfg]; exact hs.inRing

/-- Settles O48: every operation keeps the storage, and it does not look at the schedule. -/
theorem storageStaysCanonical : Obligations.StorageStaysCanonical := fun _ _ =>
  step_keeps (fun _ _ hs => ⟨hs.canonical, hs.inRing⟩) (fun _ _ _ => exec_storageOk)

/-! ### The modes of the interface -/

/-- `t` is in the same mode as `s`, configured alike. -/
structure State.SameMode (s t : State) : Prop where
  cfg : t.cfg = s.cfg := by simp
  rxen : t.rxen = s.rxen := by simp
  txen : t.txen = s.txen := by simp
  rxcie : t.rxcie = s.rxcie := by simp
  gie : t.gie = s.gie := by simp
  inited : t.inited = s.inited := by simp
  frameFmt : t.frameFmt = s.frameFmt := by simp
  baudH : t.baudH = s.baudH := by simp
  baudL : t.baudL = s.baudL := by simp

theorem mode?_congr (hr : t.rxen = s.rxen) (ht : t.txen = s.txen) (hi : t.rxcie = s.rxcie) :
    t.mode? = s.mode? := by
  simp only [State.mode?, hr, ht, hi]

theorem mode?_eq_uninitialised :
    s.mode? = some .uninitialised ↔ s.rxen = false ∧ s.txen = false ∧ s.rxcie = false := by
  unfold State.mode?
  cases s.rxen <;> cases s.txen <;> cases s.rxcie <;> simp

/-- Within a mode the invariant asks only where the consumer stands and what the two data-register flags
say. -/
theorem State.PortInv.sameMode (h : s.PortInv) (hm : s.SameMode t)
    (hphase : s.inited = false → t.cphase = .idle) (hrxc : t.rxc = true → s.rxen = true)
    (hudre : t.udre = false → s.txen = true) : t.PortInv := by
  have hmode := mode?_congr hm.rxen hm.txen hm.rxcie
  constructor
  · rw [hmode]; exact h.legalMode
  · rw [hm.gie, hm.rxcie]; exact h.unmasked
  · rw [hm.inited, hmode]; exact fun hi => ⟨(h.beforeInit hi).1, hphase hi⟩
  · rw [hm.inited, hmode]; exact h.afterInit
  · rw [hm.rxen]; exact hrxc
  · rw [hm.txen]; exact hudre
  · rw [hm.frameFmt, hm.inited]; exact h.frame
  · rw [hm.inited, hm.baudH, hm.baudL, hm.cfg]; exact h.divisor

/-- Before init nothing is enabled, masked, waiting or being sent (R39, R90). -/
theorem State.PortInv.quiet (h : s.PortInv) (hi : s.inited = false) :
    s.gie = false ∧ s.rxc = false ∧ s.udre = true := by
  obtain ⟨hrxen, htxen, hrxcie⟩ := mode?_eq_uninitialised.1 (h.beforeInit hi).1
  refine ⟨h.unmasked.trans hrxcie, ?_, ?_⟩
  · exact Bool.eq_false_iff.2 fun hr => by simp [h.receiverOn hr] at hrxen
  · exact Bool.of_not_eq_false fun hu => by simp [h.transmitterOn hu] at htxen

/-- Before init no `getByte` runs. -/
theorem State.PortInv.inited_of_phase (h : s.PortInv) (hp : s.cphase ≠ .idle) : s.inited = true :=
  Bool.of_not_eq_false fun hi => hp (h.beforeInit hi).2

/-- The two halves of the divisor that init writes make the divisor (R35). -/
theorem divisor_halves (d : Divisor) : d.extractLsb' 8 4 ++ d.extractLsb' 0 8 = d := by
  rw [BitVec.extractLsb'_append_extractLsb'_eq_extractLsb' (by rfl)]
  exact BitVec.extractLsb'_eq_self

/-- An init that selects a mode and leaves `gie` equal to `rxcie` establishes the invariant's clauses for a
configured machine (R90 to R94). -/
theorem State.PortInv.initialise (h : s.PortInv) (hi : s.inited = false) {rx tx ie g : Bool}
    (hmode : (s.configure rx tx ie).mode?.isSome = true)
    (hsel : (s.configure rx tx ie).mode? ≠ some .uninitialised)
    (hg : g = ie) (ht : t = { (s.configure rx tx ie).markInited with gie := g }) : t.PortInv := by
  obtain ⟨-, hrxc, hudre⟩ := h.quiet hi
  subst ht
  constructor
  · exact hmode
  · exact hg
  · exact nofun
  · exact fun _ => hsel
  · exact fun hr => by simp [hrxc] at hr
  · exact fun hu => by simp [hudre] at hu
  · rfl
  · exact fun _ => divisor_halves s.cfg.baudDiv

theorem portInv_powerOn (s : State) : s.powerOn.PortInv := by
  constructor <;> simp [State.mode?]

theorem exec_portInv (hs : s.PortInv) (h : exec i s = .next t) : t.PortInv := by
  have hphase := fun hi => (hs.beforeInit hi).2
  cases i with
  | reset => obtain rfl := exec_reset_next.1 h; exact portInv_powerOn s
  | initRxIrq =>
    obtain ⟨hi, -, rfl⟩ := exec_initRxIrq_next.1 h
    exact hs.initialise hi (rx := true) (tx := false) (ie := true) rfl nofun rfl rfl
  | initTxOnly =>
    obtain ⟨hi, -, rfl⟩ := exec_initTxOnly_next.1 h
    exact hs.initialise hi (rx := false) (tx := true) (ie := false) rfl nofun (hs.quiet hi).1 rfl
  | initRxPolled =>
    obtain ⟨hi, -, rfl⟩ := exec_initRxPolled_next.1 h
    exact hs.initialise hi (rx := true) (tx := false) (ie := false) rfl nofun (hs.quiet hi).1 rfl
  | initTxrxPolled =>
    obtain ⟨hi, -, rfl⟩ := exec_initTxrxPolled_next.1 h
    exact hs.initialise hi (rx := true) (tx := true) (ie := false) rfl nofun (hs.quiet hi).1 rfl
  | rxArrive b =>
    obtain ⟨-, rfl⟩ | ⟨hon, -, rfl⟩ | ⟨hon, -, rfl⟩ := exec_rxArrive_next.1 h
    · exact hs
    · exact hs.sameMode {} hphase (fun _ => hon) hs.transmitterOn
    · exact hs.sameMode {} hphase (fun _ => hon) hs.transmitterOn
  | isrRxc =>
    obtain ⟨⟨-, -, hgie⟩, ⟨-, rfl⟩ | ⟨-, -, rfl⟩⟩ := exec_isrRxc_next.1 h <;>
      exact hs.sameMode { gie := hgie.symm } hphase nofun hs.transmitterOn
  | isrTxc => obtain rfl := exec_isrTxc_next.1 h; exact hs
  | gbCheck =>
    obtain ⟨hi, -, ⟨-, rfl⟩ | ⟨-, rfl⟩⟩ := exec_gbCheck_next.1 h
    · exact hs.sameMode {} hphase hs.receiverOn hs.transmitterOn
    · exact hs.sameMode {} (fun hn => by simp [hi] at hn) hs.receiverOn hs.transmitterOn
  | gbAdvance =>
    obtain ⟨hp, rfl⟩ := exec_gbAdvance_next.1 h
    have hi := hs.inited_of_phase (by simp [hp])
    exact hs.sameMode {} (fun hn => by simp [hi] at hn) hs.receiverOn hs.transmitterOn
  | gbRead =>
    obtain ⟨-, -, rfl⟩ := exec_gbRead_next.1 h
    exact hs.sameMode {} (fun _ => rfl) hs.receiverOn hs.transmitterOn
  | getError =>
    obtain ⟨-, rfl⟩ := exec_getError_next.1 h
    exact hs.sameMode {} hphase hs.receiverOn hs.transmitterOn
  | sendByte b =>
    obtain ⟨⟨-, hon, -⟩, ⟨-, rfl⟩ | ⟨-, rfl⟩⟩ := exec_sendByte_next.1 h <;>
      exact hs.sameMode {} hphase hs.receiverOn (fun _ => hon)
  | txDrain =>
    obtain ⟨-, rfl⟩ | ⟨-, rfl⟩ := exec_txDrain_next.1 h
    · exact hs.sameMode {} hphase hs.receiverOn nofun
    · exact hs

/-! ### The call that waits -/

theorem heldInv_of_none (h : s.held = none) : s.HeldInv := fun hh => by simp [h] at hh

/-- An update begins no wait where `simp` finds that it leaves `held` alone. -/
theorem heldInv_of_none_kept (h : s.held = none) (ht : t.held = s.held := by simp) : t.HeldInv :=
  heldInv_of_none (ht.trans h)

/-- The consumer's other operations run only while no call waits, and the other agents leave alone what the
invariant speaks of (R151). -/
theorem exec_heldInv (hs : s.HeldInv)
    (hi : s.held = none ∨ agentOf i ≠ .consumer ∨ ∃ b, i = .sendByte b)
    (h : exec i s = .next t) : t.HeldInv := by
  have hfree (hc : agentOf i = .consumer) (hb : ∀ b, i ≠ .sendByte b) : s.held = none := by
    simpa [hc, hb] using hi
  cases i with
  | reset => obtain rfl := exec_reset_next.1 h; exact heldInv_of_none rfl
  | sendByte b =>
    obtain ⟨hallowed, ⟨-, rfl⟩ | ⟨-, rfl⟩⟩ := exec_sendByte_next.1 h
    · exact fun _ => hallowed
    · exact heldInv_of_none rfl
  | rxArrive b =>
    obtain ⟨-, rfl⟩ | ⟨-, -, rfl⟩ | ⟨-, -, rfl⟩ := exec_rxArrive_next.1 h <;> exact hs
  | isrRxc => obtain ⟨-, ⟨-, rfl⟩ | ⟨-, -, rfl⟩⟩ := exec_isrRxc_next.1 h <;> exact hs
  | isrTxc => obtain rfl := exec_isrTxc_next.1 h; exact hs
  | txDrain => obtain ⟨-, rfl⟩ | ⟨-, rfl⟩ := exec_txDrain_next.1 h <;> exact hs
  | initRxIrq =>
    obtain ⟨-, -, rfl⟩ := exec_initRxIrq_next.1 h; exact heldInv_of_none_kept (hfree rfl nofun)
  | initTxOnly =>
    obtain ⟨-, -, rfl⟩ := exec_initTxOnly_next.1 h; exact heldInv_of_none_kept (hfree rfl nofun)
  | initRxPolled =>
    obtain ⟨-, -, rfl⟩ := exec_initRxPolled_next.1 h; exact heldInv_of_none_kept (hfree rfl nofun)
  | initTxrxPolled =>
    obtain ⟨-, -, rfl⟩ := exec_initTxrxPolled_next.1 h; exact heldInv_of_none_kept (hfree rfl nofun)
  | gbCheck =>
    obtain ⟨-, -, ⟨-, rfl⟩ | ⟨-, rfl⟩⟩ := exec_gbCheck_next.1 h <;>
      exact heldInv_of_none_kept (hfree rfl nofun)
  | gbAdvance => obtain ⟨-, rfl⟩ := exec_gbAdvance_next.1 h; exact heldInv_of_none_kept (hfree rfl nofun)
  | gbRead => obtain ⟨-, -, rfl⟩ := exec_gbRead_next.1 h; exact heldInv_of_none_kept (hfree rfl nofun)
  | getError => obtain ⟨-, rfl⟩ := exec_getError_next.1 h; exact heldInv_of_none_kept (hfree rfl nofun)

theorem step_heldInv (hs : s.HeldInv) (h : step s = .next t) : t.HeldInv := by
  obtain rfl | ⟨i, ws, hi, he⟩ := step_exec h
  · exact hs
  · exact exec_heldInv (s := { s with sched := ws }) hs hi he

theorem step_portInv (hs : s.PortInv) (h : step s = .next t) : t.PortInv :=
  step_keeps
    (fun _ _ hs => hs.sameMode {} (fun hi => (hs.beforeInit hi).2) hs.receiverOn hs.transmitterOn)
    (fun _ _ _ => exec_portInv) hs h

/-- Settles O51: every operation keeps the mode legal, and the fetch keeps the consumer's operations from a
call that waits. -/
theorem modeStaysLegal : Obligations.ModeStaysLegal := fun _ _ hp hh h =>
  ⟨step_portInv hp h, step_heldInv hh h⟩

/-! ### The ring invariant -/

theorem inflight_of_advanced (h : s.cphase = .advanced) : s.inflight = [s.buf.read s.tail.toNat] := by
  simp only [State.inflight, h]

theorem inflight_of_not_advanced (h : s.cphase ≠ .advanced) : s.inflight = [] := by
  unfold State.inflight
  cases hp : s.cphase with
  | advanced => exact absurd hp h
  | idle | nonempty => rfl

theorem State.RingInv.congr (h : s.RingInv) (hr : s.SameRing t) : t.RingInv := by
  obtain ⟨hrange, hcons, hseen, hdec, hcode⟩ := h
  have hq := queue_congr hr.cfg hr.buf hr.head hr.tail
  have hf := inflight_congr hr.cphase hr.buf hr.tail
  have hcount := count_congr hr.cfg hr.head hr.tail
  constructor
  · exact hrange.congr hr
  · rw [hr.accepted, hr.delivered, hf, hq, hcons]
  · rw [hr.lastError, hr.cfg, hr.dropped, hseen]
  · rw [hr.cphase, hcount]; exact hdec
  · rw [hr.lastError, hr.cfg]; exact hcode

/-- A state with an empty ring and nothing observed, at startup. -/
theorem ringInv_of_start (hc : s.cfg.wf = true) (hh : s.head = 0) (ht : s.tail = 0)
    (hp : s.cphase = .idle) (he : s.lastError = s.cfg.errNone) (ho : s.obs = {}) : s.RingInv := by
  have hrange := inRange_of_zero hc hh ht
  have hq := queue_of_empty hrange (hh.trans ht.symm)
  have hf : s.inflight = [] := inflight_of_not_advanced (by simp [hp])
  constructor
  · exact hrange
  · simp [ho, hf, hq]
  · simp [he, ho, (codes_differ hc).symm]
  · simp [hp]
  · exact .inl he

/-- R105: nothing of the ring moves, and the flag tells of the dropped byte. -/
theorem State.RingInv.drop (h : s.RingInv) :
    (s.enterInterrupt.afterDataRead.raiseOverflow s.rxData).returnInterrupt.RingInv := by
  obtain ⟨hrange, hcons, -, hdec, -⟩ := h
  constructor
  · exact ⟨hrange.cfgWf, hrange.headIn, hrange.tailIn⟩
  · exact hcons
  · simp
  · exact hdec
  · exact .inr rfl

/-- The slot the handler stores to is not the one a `getByte` is about to read (R137). -/
theorem tail_ne_candidateHead (h : s.isFull = false) : s.tail.toNat ≠ s.candidateHead.toNat :=
  fun he => beq_eq_false_iff_ne.1 h (BitVec.eq_of_toNat_eq he.symm)

/-- R106: the byte accepted goes to the end of the queue. -/
theorem State.RingInv.store (h : s.RingInv) (hw : s.buf.wf = true) (hfree : s.isFull = false)
    (ht : t = ((s.enterInterrupt.afterDataRead.setSlot s.candidateHead.toNat s.rxData).publishHead
      s.candidateHead s.rxData).returnInterrupt) : t.RingInv := by
  obtain ⟨hrange, hcons, hseen, hdec, hcode⟩ := h
  obtain ⟨hcount, hqueue⟩ := queue_push (t := t) (b := s.rxData) hrange hw hfree (by simp [ht])
    (by simp [ht]) (by simp [ht]) (by simp [ht])
  have hread : t.buf.read t.tail.toNat = s.buf.read s.tail.toNat := by
    simp [ht, Memory.read_write_other hw s.rxData (tail_ne_candidateHead hfree)]
  have hphase : t.cphase = s.cphase := by simp [ht]
  have hflight : t.inflight = s.inflight := by simp only [State.inflight, hphase, hread]
  have haccepted : t.obs.accepted = s.obs.accepted ++ [s.rxData] := by simp [ht]
  have hdelivered : t.obs.delivered = s.obs.delivered := by simp [ht]
  constructor
  · subst ht; exact ⟨hrange.cfgWf, hrange.candidateHead_lt, hrange.tailIn⟩
  · rw [haccepted, hdelivered, hflight, hqueue, hcons, List.append_assoc]
  · subst ht; exact hseen
  · exact fun _ => by omega
  · subst ht; exact hcode

/-- R116: the decision is right when it is made. -/
theorem State.RingInv.checkNonempty (h : s.RingInv) (hp : s.cphase = .idle) (hne : s.isEmpty = false) :
    (s.setPhase .nonempty).RingInv := by
  obtain ⟨hrange, hcons, hseen, -, hcode⟩ := h
  have hcount : s.count ≠ 0 := fun h0 => by simp [(isEmpty_iff hrange).2 h0] at hne
  rw [inflight_of_not_advanced (by simp [hp])] at hcons
  constructor
  · exact ⟨hrange.cfgWf, hrange.headIn, hrange.tailIn⟩
  · exact hcons
  · exact hseen
  · exact fun _ => Nat.one_le_iff_ne_zero.2 hcount
  · exact hcode

/-- R117: the oldest byte of the queue is now being read. -/
theorem State.RingInv.advance (h : s.RingInv) (hp : s.cphase = .nonempty) :
    (s.advanceTail.setPhase .advanced).RingInv := by
  obtain ⟨hrange, hcons, hseen, hdec, hcode⟩ := h
  obtain ⟨-, hqueue⟩ := queue_advance (t := s.advanceTail.setPhase .advanced) hrange
    (hdec hp) rfl rfl rfl rfl
  rw [inflight_of_not_advanced (by simp [hp]), hqueue] at hcons
  constructor
  · exact ⟨hrange.cfgWf, hrange.headIn, indexSucc_in_ring hrange.cfgWf _⟩
  · rw [inflight_of_advanced rfl]
    simpa using hcons
  · exact hseen
  · exact nofun
  · exact hcode

/-- R118: the byte that was being read is now delivered. -/
theorem State.RingInv.read (h : s.RingInv) (hp : s.cphase = .advanced) :
    (((s.setPhase .idle).deliver (s.buf.read s.tail.toNat)).handBack
      (.getByte (s.buf.read s.tail.toNat))).RingInv := by
  obtain ⟨hrange, hcons, hseen, -, hcode⟩ := h
  rw [inflight_of_advanced hp] at hcons
  constructor
  · exact ⟨hrange.cfgWf, hrange.headIn, hrange.tailIn⟩
  · rw [inflight_of_not_advanced (by simp), List.append_nil]
    exact hcons
  · exact hseen
  · exact nofun
  · exact hcode

/-- The ring invariant is kept by every operation on a storage in canonical form (R138). -/
theorem exec_ringInv (hw : s.buf.wf = true) (hs : s.RingInv) (h : exec i s = .next t) : t.RingInv := by
  cases exec_ringStep h with
  | powerOn => exact ringInv_of_start hs.inRange.cfgWf rfl rfl rfl rfl rfl
  | drop => exact hs.drop
  | store hfree => exact hs.store hw hfree rfl
  | check hp hne => exact hs.checkNonempty hp hne
  | advance hp => exact hs.advance hp
  | read hp => exact hs.read hp
  | same hr => exact hs.congr hr

theorem step_ringInv (hw : s.buf.wf = true) (hs : s.RingInv) (h : step s = .next t) : t.RingInv := by
  obtain rfl | ⟨i, ws, -, he⟩ := step_exec h
  · exact hs
  · exact exec_ringInv (s := { s with sched := ws }) hw (hs.congr {}) he

/-! ### Reset, and every run from it -/

/-- Settles O9: the slots of the empty storage read as 0x00. -/
theorem resetStateHasTheStatedValues : Obligations.ResetStateHasTheStatedValues :=
  ⟨fun _ => slot?_of_lt, rfl, rfl, rfl, rfl, rfl, rfl, rfl, rfl, rfl, rfl, rfl, rfl, rfl, rfl⟩

/-- Settles O53: at reset the ring is empty, nothing is enabled, no call waits and nothing was observed. -/
theorem resetMeetsEveryInvariant : Obligations.ResetMeetsEveryInvariant := by
  intro c ws hc
  constructor
  · exact storageOk_of_nil rfl
  · exact ringInv_of_start hc rfl rfl rfl rfl rfl
  · constructor <;> simp [State.resetIn, State.reset, State.mode?]
  · exact heldInv_of_none rfl
  · constructor <;> simp [State.resetIn, State.reset, State.pending]

theorem step_inv (hs : s.Inv) (h : step s = .next t) : t.Inv := by
  obtain ⟨hport, hheld⟩ := modeStaysLegal s t hs.port hs.held h
  exact ⟨storageStaysCanonical s t hs.storage h, step_ringInv hs.storage.canonical hs.ring h, hport, hheld,
    everyByteIsAccountedFor s t hs.trace h⟩

/-- Settles O54: the invariants hold at reset, every step keeps them, and they exclude a fault. -/
theorem everyRunMeetsEveryInvariant : Obligations.EveryRunMeetsEveryInvariant := fun c ws n hc =>
  have hreset := resetMeetsEveryInvariant c ws hc
  ⟨fun _ => run_keeps (fun _ _ => step_inv) n hreset,
    run_ne_fault (fun _ _ => step_inv) (fun _ f hs => step_ne_fault hs.ring.inRange f) n hreset⟩

end Sys2Proof.Machine
end

/-! The family of spec/20_memory.md: the index successor, and the step as the run of the next command word. -/

section

namespace Sys2Proof.Machine

variable {s s' : State} {w : Cmd} {ws : List Cmd} {i : Instr}

/-! ### The index successor -/

/-- Settles O42: masking is the modulus, and `i + 1` reaches `N` at the last index alone. -/
theorem indexSuccessorWraps : Obligations.IndexSuccessorWraps := by
  intro c i hc hi
  have hval := indexSucc_val hc i
  refine ⟨fun hlt => ?_, fun hlast => ?_, hval⟩
  · rw [hval, Nat.mod_eq_of_lt (Nat.add_lt_of_lt_sub hlt)]
  · rw [hval, hlast, Nat.sub_add_cancel (Nat.one_le_of_lt hi), Nat.mod_self]

/-! ### The step runs the next command word -/

theorem step_of_fetch_run (h : s.fetch = .run i s') : step s = exec i s' := by simp only [step, h]

theorem fetch_of_held_none (hc : s.cfg.wf = true) (hh : s.held = none) : s.fetch = s.fetchWord := by
  simp only [State.fetch, if_pos hc, hh]

theorem fetch_of_held_some {b : Byte} (hc : s.cfg.wf = true) (hh : s.held = some b) :
    s.fetch = s.fetchHeld b := by
  simp only [State.fetch, if_pos hc, hh]

/-- With no call waiting the next word is taken, whichever agent's it is (R59). -/
theorem fetchWord_of_decode (hs : s.sched = w :: ws) (hd : decode w = .ok i) :
    s.fetchWord = .run i { s with sched := ws } := by
  simp only [State.fetchWord, hs, hd]

theorem otherAgents_of_decode (hd : decode w = .ok i) (ha : agentOf i ≠ .consumer) :
    otherAgents w = some i := by
  simp only [otherAgents, hd, if_neg ha]

/-- Past a waiting call the next word is taken if it is another agent's, whether or not the transmitter is
ready (R151 corner case (a)). -/
theorem fetchHeld_of_decode (b : Byte) (hs : s.sched = w :: ws) (hd : decode w = .ok i)
    (ha : agentOf i ≠ .consumer) : s.fetchHeld b = .run i { s with sched := ws } := by
  have hw := otherAgents_of_decode hd ha
  have hhead : headOther s.sched = some (i, ws) := by simp only [hs, headOther, hw, Option.map_some]
  have htake : takeOther s.sched = some (i, ws) := by simp only [hs, takeOther, hw]
  simp only [State.fetchHeld, hhead, htake, ite_self]

/-- Settles O5: the fetch finds the next word, with no call waiting or past one. -/
theorem stepRunsTheDecodedInstruction : Obligations.StepRunsTheDecodedInstruction := by
  intro s w ws i hc hturn hs hd
  apply step_of_fetch_run
  rcases Option.eq_none_or_eq_some s.held with hnone | ⟨b, hsome⟩
  · rw [fetch_of_held_none hc hnone, fetchWord_of_decode hs hd]
  · have ha : agentOf i ≠ .consumer := hturn.resolve_left (by simp [hsome])
    rw [fetch_of_held_some hc hsome, fetchHeld_of_decode b hs hd ha]

end Sys2Proof.Machine
end

/-! The family of spec/30_encoding.md: the decoder and the encoder are inverse to each other, and the words
outside the encoder's range are the reserved ones. -/

section

namespace Sys2Proof

variable {w : Cmd} {i j : Instr}

/-! ### Format Z -/

theorem decodeZ_eq_ok : decodeZ w i = .ok j ↔ Cmd.arg w = 0 ∧ i = j := by
  unfold decodeZ
  split
  · next harg => simp only [harg, true_and, Except.ok.injEq]
  · next harg => simp only [harg, false_and, reduceCtorEq]

theorem decodeZ_refuses_iff : (∃ e, decodeZ w i = .error e) ↔ Cmd.arg w ≠ 0 := by
  unfold decodeZ
  split
  · next harg => exact iff_of_false nofun (not_not_intro harg)
  · next harg => exact iff_of_true ⟨_, rfl⟩ harg

/-- A word that format Z accepts for an operation `i` of its operation code is the word of `i`. -/
theorem encode_of_decodeZ {o : BitVec 4} (hi : encode i = command o 0) (ho : Cmd.op w = o.toNat)
    (h : decodeZ w i = .ok j) : encode j = w := by
  obtain ⟨harg, rfl⟩ := decodeZ_eq_ok.1 h
  rw [hi, command_of_fields ho harg]

/-! ### Decoder and encoder -/

theorem decode_encode (i : Instr) : decode (encode i) = .ok i := by
  cases i with
  | rxArrive b | sendByte b => simp [encode, decode]
  | _ => rfl

/-- Of the decoder's fifteen cases, the third and the thirteenth are the operations of format B and the last
is that of the reserved operation codes. -/
theorem encode_of_decode (h : decode w = .ok i) : encode i = w := by
  revert h
  fun_cases decode w with
  | case3 hop | case13 hop => rintro ⟨⟩; exact command_of_fields hop rfl
  | case15 => rintro ⟨⟩
  | _ hop => exact encode_of_decodeZ rfl hop

/-- Settles O1: a word put together from two fields has these fields, and they select the row of the table
that it was made from. -/
theorem decodeOfEncodeIsTheInstruction : Obligations.DecodeOfEncodeIsTheInstruction := decode_encode

/-- Settles O2: the row that is selected fixes the operation code, and the operand field is either carried
by the operation or required to be 0. -/
theorem encodeOfDecodeIsTheWord : Obligations.EncodeOfDecodeIsTheWord := fun _ _ => encode_of_decode

/-! ### Reserved words -/

/-- The decoder refuses exactly the words that R74 reserves (the cases as in `encode_of_decode`). -/
theorem decode_refuses_iff : (∃ e, decode w = .error e) ↔ Cmd.wf w = false := by
  fun_cases decode w with
  | case3 hop | case13 hop => simp [Cmd.wf, Cmd.takesOperand, hop]
  | case15 =>
    have hop : ¬ Cmd.op w < 0xE := by
      simp only [imp_false] at *
      omega
    simp [Cmd.wf, hop]
  | _ hop => simp [decodeZ_refuses_iff, Cmd.wf, Cmd.takesOperand, hop]

/-- The reserved words as numbers (R70, R74). -/
theorem Cmd.wf_eq_false : Cmd.wf w = false ↔
    (w.toNat / 256 = 0xE ∨ w.toNat / 256 = 0xF) ∨
      (w.toNat / 256 ≠ 0x2 ∧ w.toNat / 256 ≠ 0xC ∧ w.toNat % 256 ≠ 0) := by
  have hlt := w.isLt
  have harg : Cmd.arg w = 0 ↔ w.toNat % 256 = 0 := by rw [← Cmd.arg_val, ← BitVec.toNat_inj]; rfl
  simp only [Cmd.wf, Cmd.takesOperand, Cmd.op_val, ← Bool.not_eq_true, Bool.and_eq_true, Bool.or_eq_true,
    decide_eq_true_eq, beq_iff_eq, harg]
  omega

end Sys2Proof

namespace Sys2Proof.Machine

variable {s : State} {w : Cmd} {ws : List Cmd}

theorem step_of_fetch_stop {r : Refusal} (h : s.fetch = .stop r) : step s = .refused r := by
  simp only [step, h]

theorem fetchWord_of_decode_error {e : DecodeError} (hs : s.sched = w :: ws) (hd : decode w = .error e) :
    s.fetchWord = .stop .reservedEncoding := by
  simp only [State.fetchWord, hs, hd]

/-- Settles O3: the decoder refuses the reserved words alone, and the fetch hands its refusal on. -/
theorem reservedWordsAreExactlyRefused : Obligations.ReservedWordsAreExactlyRefused := by
  refine ⟨fun w => decode_refuses_iff.trans Cmd.wf_eq_false, ?_⟩
  intro s w ws e hc hh hs hd
  apply step_of_fetch_stop
  rw [fetch_of_held_none hc hh, fetchWord_of_decode_error hs hd]

/-- Settles O4: the legal words are those of the encoder, the others are refused by either clause of R74. -/
theorem sampleWordsDecode : Obligations.SampleWordsDecode :=
  ⟨decode_encode .reset, decode_encode .initRxIrq, decode_encode (.rxArrive 0xFF),
    decode_encode (.rxArrive 0x00), decode_encode .isrRxc, decode_encode .gbCheck,
    decode_encode (.sendByte 0x0A), decode_encode .txDrain, rfl, rfl, rfl⟩

end Sys2Proof.Machine
end

/-! The family of spec/40_init_mode_config.md: the four init operations, and what the receive side does in the
modes they leave the handler off in. -/

section

namespace Sys2Proof.Machine

variable {s t : State} {i : Instr}

/-! ### The init operations -/

/-- What the four init routines share, field by field (R90). -/
theorem configure_eq (s : State) (rx tx ie : Bool) : s.configure rx tx ie =
    { s with
      baudH := s.cfg.baudDiv.extractLsb' 8 4, baudL := s.cfg.baudDiv.extractLsb' 0 8,
      rxen := rx, txen := tx, rxcie := ie, frameFmt := .f8n1 } := rfl

/-- R90, R184 (INIT_TWICE). -/
theorem exec_init_of_inited
    (hi : i = .initRxIrq ∨ i = .initTxOnly ∨ i = .initRxPolled ∨ i = .initTxrxPolled)
    (h : s.inited = true) : exec i s = .refused .initTwice := by
  rcases hi with rfl | rfl | rfl | rfl <;> exact if_pos h

/-- Every init writes the divisor, control-B and control-C and records itself; INIT_RX_IRQ also unmasks (R90 to
R95). -/
theorem exec_init_next
    (hi : i = .initRxIrq ∨ i = .initTxOnly ∨ i = .initRxPolled ∨ i = .initTxrxPolled)
    (h : exec i s = .next t) : ∃ rx tx ie, t = (s.configure rx tx ie).markInited ∨
      (i = .initRxIrq ∧ t = (s.configure rx tx ie).unmask.markInited) := by
  rcases hi with rfl | rfl | rfl | rfl
  · obtain ⟨-, -, ht⟩ := exec_initRxIrq_next.1 h
    exact ⟨_, _, _, .inr ⟨rfl, ht⟩⟩
  · obtain ⟨-, -, ht⟩ := exec_initTxOnly_next.1 h
    exact ⟨_, _, _, .inl ht⟩
  · obtain ⟨-, -, ht⟩ := exec_initRxPolled_next.1 h
    exact ⟨_, _, _, .inl ht⟩
  · obtain ⟨-, -, ht⟩ := exec_initTxrxPolled_next.1 h
    exact ⟨_, _, _, .inl ht⟩

/-- Settles O15: the registers that an init writes are none of the fields the statement names. -/
theorem initFrame : Obligations.InitFrame := by
  intro i s t hi h
  obtain ⟨rx, tx, ie, rfl | ⟨hirq, rfl⟩⟩ := exec_init_next hi h
  · exact ⟨slot?_congr (by simp) (by simp), by simp⟩
  · exact ⟨slot?_congr (by simp) (by simp), by simp [hirq]⟩

/-- Settles O11: before init the interface invariant leaves no byte waiting (R91 corner case (a)). -/
theorem initRxIrqEffect : Obligations.InitRxIrqEffect := by
  refine ⟨rfl, rfl, fun s => ⟨fun hi hp => exec_initRxIrq_next.2 ⟨hi, hp, ?_⟩,
    exec_init_of_inited (by simp), fun hport hi => ?_⟩⟩
  · simp only [configure_eq, State.unmask, State.markInited]
  · obtain ⟨-, hrxc, -⟩ := hport.quiet hi
    exact ⟨by simp [State.irqRxc, hrxc], hrxc⟩

/-! ### What goes on after an init -/

/-- Once an init has run, no operation but RESET leaves its mode (R3, R192). -/
theorem exec_sameMode (hi : s.inited = true) (hr : i ≠ .reset) (h : exec i s = .next t) :
    s.SameMode t := by
  cases i with
  | reset => exact absurd rfl hr
  | initRxIrq | initTxOnly | initRxPolled | initTxrxPolled =>
    cases (exec_init_of_inited (by simp) hi).symm.trans h
  | rxArrive b => obtain ⟨-, rfl⟩ | ⟨-, -, rfl⟩ | ⟨-, -, rfl⟩ := exec_rxArrive_next.1 h <;> exact {}
  | isrRxc =>
    obtain ⟨⟨-, -, hgie⟩, ⟨-, rfl⟩ | ⟨-, -, rfl⟩⟩ := exec_isrRxc_next.1 h <;>
      exact { gie := hgie.symm }
  | isrTxc => obtain rfl := exec_isrTxc_next.1 h; exact {}
  | gbCheck => obtain ⟨-, -, ⟨-, rfl⟩ | ⟨-, rfl⟩⟩ := exec_gbCheck_next.1 h <;> exact {}
  | gbAdvance => obtain ⟨-, rfl⟩ := exec_gbAdvance_next.1 h; exact {}
  | gbRead => obtain ⟨-, -, rfl⟩ := exec_gbRead_next.1 h; exact {}
  | getError => obtain ⟨-, rfl⟩ := exec_getError_next.1 h; exact {}
  | sendByte b => obtain ⟨-, ⟨-, rfl⟩ | ⟨-, rfl⟩⟩ := exec_sendByte_next.1 h <;> exact {}
  | txDrain => obtain ⟨-, rfl⟩ | ⟨-, rfl⟩ := exec_txDrain_next.1 h <;> exact {}

/-- RESET and ISR_RXC apart, only RX_ARRIVE with the receiver on writes `rxc`, and sets it (R32). -/
theorem exec_rxc (hr : i ≠ .reset) (hn : i ≠ .isrRxc) (h : exec i s = .next t) :
    t.rxc = s.rxc ∨ (s.rxen = true ∧ t.rxc = true) := by
  cases i with
  | reset => exact absurd rfl hr
  | isrRxc => exact absurd rfl hn
  | rxArrive b =>
    obtain ⟨-, rfl⟩ | ⟨hon, -, rfl⟩ | ⟨-, -, rfl⟩ := exec_rxArrive_next.1 h
    · exact .inl (by simp)
    · exact .inr ⟨hon, rfl⟩
    · exact .inl (by simp)
  | initRxIrq | initTxOnly | initRxPolled | initTxrxPolled =>
    obtain ⟨rx, tx, ie, rfl | ⟨-, rfl⟩⟩ := exec_init_next (by simp) h <;> exact .inl (by simp)
  | isrTxc => obtain rfl := exec_isrTxc_next.1 h; exact .inl (by simp)
  | gbCheck => obtain ⟨-, -, ⟨-, rfl⟩ | ⟨-, rfl⟩⟩ := exec_gbCheck_next.1 h <;> exact .inl (by simp)
  | gbAdvance => obtain ⟨-, rfl⟩ := exec_gbAdvance_next.1 h; exact .inl (by simp)
  | gbRead => obtain ⟨-, -, rfl⟩ := exec_gbRead_next.1 h; exact .inl (by simp)
  | getError => obtain ⟨-, rfl⟩ := exec_getError_next.1 h; exact .inl (by simp)
  | sendByte b => obtain ⟨-, ⟨-, rfl⟩ | ⟨-, rfl⟩⟩ := exec_sendByte_next.1 h <;> exact .inl (by simp)
  | txDrain => obtain ⟨-, rfl⟩ | ⟨-, rfl⟩ := exec_txDrain_next.1 h <;> exact .inl (by simp)

/-- RESET apart, only ISR_RXC writes `head` and the slots (R130). -/
theorem exec_buf_head (hr : i ≠ .reset) (hn : i ≠ .isrRxc) (h : exec i s = .next t) :
    t.buf = s.buf ∧ t.head = s.head := by
  cases exec_ringStep h with
  | powerOn => exact absurd rfl hr
  | drop | store => exact absurd rfl hn
  | check | advance | read => exact ⟨rfl, rfl⟩
  | same ring => exact ⟨ring.buf, ring.head⟩

theorem exec_isrRxc_of_not_taken (h : s.rxcTaken = false) :
    exec .isrRxc s = .refused .wrongContext := by
  simp only [exec, execIsrRxc, h, Bool.false_eq_true, if_false]

theorem ne_isrRxc_of_not_taken (hn : s.rxcTaken = false) (h : exec i s = .next t) : i ≠ .isrRxc := by
  rintro rfl
  cases (exec_isrRxc_of_not_taken hn).symm.trans h

/-! ### With the receiver off -/

/-- Nothing is pending, so the handler does not store, and the ring is empty, so a `getByte` does not get past
its check. -/
theorem State.ReceiverOff.sameRing (hs : s.ReceiverOff) (hr : i ≠ .reset) (hn : i ≠ .isrRxc)
    (h : exec i s = .next t) : s.SameRing t := by
  cases exec_ringStep h with
  | powerOn => exact absurd rfl hr
  | drop | store => exact absurd rfl hn
  | check _ nonempty => simp [State.isEmpty, hs.empty] at nonempty
  | advance phase | read phase => simp [hs.noCall] at phase
  | same ring => exact ring

theorem State.ReceiverOff.not_taken (hs : s.ReceiverOff) : s.rxcTaken = false := by
  simp [State.rxcTaken, State.irqRxc, hs.nothingWaits]

theorem State.ReceiverOff.kept (hs : s.ReceiverOff) (hr : i ≠ .reset) (h : exec i s = .next t) :
    t.ReceiverOff := by
  have hn := ne_isrRxc_of_not_taken hs.not_taken h
  have hmode := exec_sameMode hs.configured hr h
  have hring := hs.sameRing hr hn h
  constructor
  · exact hmode.inited.trans hs.configured
  · exact hmode.rxen.trans hs.off
  · rcases exec_rxc hr hn h with hkept | ⟨hon, -⟩
    · exact hkept.trans hs.nothingWaits
    · simp [hs.off] at hon
  · rw [hring.head, hring.tail, hs.empty]
  · exact hring.cphase.trans hs.noCall

theorem State.ReceiverOff.check_returned (hs : s.ReceiverOff) (h : exec .gbCheck s = .next t) :
    t.returned = s.returned ++ [.getByte s.cfg.emptySentinel] := by
  obtain ⟨-, -, ⟨-, rfl⟩ | ⟨hne, -⟩⟩ := exec_gbCheck_next.1 h
  · rfl
  · simp [State.isEmpty, hs.empty] at hne

/-- Settles O12: nothing is received, so the ring stays empty and every check finds it so. -/
theorem initTxOnlyEffect : Obligations.InitTxOnlyEffect := by
  refine ⟨rfl, rfl, fun s => ⟨fun hi hp => exec_initTxOnly_next.2 ⟨hi, hp, ?_⟩,
    exec_init_of_inited (by simp), fun t hrxc he h => ?_, fun i t hs hr h => ?_⟩⟩
  · simp only [configure_eq, State.markInited]
  · obtain ⟨-, hp, rfl⟩ := exec_initTxOnly_next.1 h
    constructor <;> simp [hrxc, he, hp]
  · obtain ⟨hbuf, hhead⟩ := exec_buf_head hr (ne_isrRxc_of_not_taken hs.not_taken h) h
    refine ⟨hs.kept hr h, hbuf, hhead, ?_, ?_⟩
    · rintro rfl
      exact hs.check_returned h
    · rintro rfl hc
      rw [hs.check_returned h, (fixed_bytes hc).1]

/-! ### With the receive interrupt off -/

theorem State.HandlerOff.not_taken (hs : s.HandlerOff) : s.rxcTaken = false := by
  simp [State.rxcTaken, State.irqRxc, hs.off]

/-- With the receiver on, every arrival leaves a byte waiting, the one that waited before if there was one. -/
theorem exec_rxArrive_on (b : Byte) (hon : s.rxen = true) :
    ∃ t, exec (.rxArrive b) s = .next t ∧ t.rxc = true ∧
      (s.rxc = true → t.hwOverrun = true ∧ t.rxData = s.rxData) := by
  cases hrxc : s.rxc with
  | false => exact ⟨s.latch b, exec_rxArrive_next.2 (.inr (.inl ⟨hon, hrxc, rfl⟩)), rfl, nofun⟩
  | true =>
    exact ⟨s.loseByte b, exec_rxArrive_next.2 (.inr (.inr ⟨hon, hrxc, rfl⟩)), hrxc, fun _ => ⟨rfl, rfl⟩⟩

/-- No operation but RESET arms the interrupt again, so nothing reads the byte that waits (R93, R94). -/
theorem handlerStaysOff : HandlerStaysOff := by
  intro s hs
  refine ⟨exec_isrRxc_of_not_taken hs.not_taken, fun i t hr h => ?_, fun b hon => exec_rxArrive_on b hon⟩
  have hn := ne_isrRxc_of_not_taken hs.not_taken h
  have hmode := exec_sameMode hs.configured hr h
  obtain ⟨hbuf, hhead⟩ := exec_buf_head hr hn h
  refine ⟨⟨hmode.inited.trans hs.configured, hmode.rxcie.trans hs.off⟩, hmode.rxen, hhead, hbuf,
    fun hw => ?_⟩
  rcases exec_rxc hr hn h with hkept | ⟨-, hset⟩
  · exact hkept.trans hw
  · exact hset

/-- Settles O13: the init leaves the receive interrupt off, and off it stays. -/
theorem initRxPolledEffect : Obligations.InitRxPolledEffect := by
  refine ⟨rfl, rfl, fun s => ⟨fun hi hp => exec_initRxPolled_next.2 ⟨hi, hp, ?_⟩,
    exec_init_of_inited (by simp)⟩, fun s t h => ?_, handlerStaysOff⟩
  · simp only [configure_eq, State.markInited]
  · obtain ⟨-, -, rfl⟩ := exec_initRxPolled_next.1 h
    exact ⟨⟨rfl, rfl⟩, rfl⟩

/-- Settles O14: on the receive side as O13. -/
theorem initTxrxPolledEffect : Obligations.InitTxrxPolledEffect := by
  refine ⟨rfl, rfl, fun s => ⟨fun hi hp => exec_initTxrxPolled_next.2 ⟨hi, hp, ?_⟩,
    exec_init_of_inited (by simp)⟩, fun s t h => ?_, handlerStaysOff⟩
  · simp only [configure_eq, State.markInited]
  · obtain ⟨-, -, rfl⟩ := exec_initTxrxPolled_next.1 h
    exact ⟨⟨rfl, rfl⟩, rfl⟩

end Sys2Proof.Machine
end

/-! The family of spec/41_producer_push.md: an arrival, and the receive handler that stores the byte or drops
it. -/

section

namespace Sys2Proof

/-- The operation code stands above the operand (R70). -/
theorem command_eq_or (o : BitVec 4) (b : Byte) :
    command o b = (o.zeroExtend 12 <<< 8) ||| b.zeroExtend 12 := by
  have happend : command o b = o ++ b := rfl
  ext k hk
  rw [happend, BitVec.getElem_append]
  by_cases hlow : k < 8
  · simp [hlow]
  · have hhigh : b.getLsbD k = false := BitVec.getLsbD_of_ge b k (by omega)
    simp [hlow, hhigh, BitVec.getLsbD_eq_getElem (x := o) (i := k - 8) (by omega)]

end Sys2Proof

namespace Sys2Proof.Machine

variable {s t : State}

/-! ### An arrival -/

/-- Settles O17: the two cases with the receiver on differ in whether a byte waits. -/
theorem rxArriveEffect : Obligations.RxArriveEffect := fun b _ =>
  ⟨command_eq_or 0x2 b, rfl, fun hon hfree => exec_rxArrive_next.2 (.inr (.inl ⟨hon, hfree, rfl⟩)),
    fun hon hwaits => exec_rxArrive_next.2 (.inr (.inr ⟨hon, hwaits, rfl⟩))⟩

/-- Settles O18: an arrival is not seen, latched or lost, and it is latched only where no byte waits. -/
theorem rxArriveFrame : Obligations.RxArriveFrame := by
  intro b s t h
  obtain ⟨-, rfl⟩ | ⟨-, hfree, rfl⟩ | ⟨-, -, rfl⟩ := exec_rxArrive_next.1 h
  · simp
  · exact ⟨slot?_congr (by simp) (by simp), by simp [hfree]⟩
  · exact ⟨slot?_congr (by simp) (by simp), by simp⟩

/-! ### The handler -/

theorem isFull_eq_true : s.isFull = true ↔ s.candidateHead = s.tail := beq_iff_eq

theorem isFull_eq_false : s.isFull = false ↔ s.candidateHead ≠ s.tail := beq_eq_false_iff_ne

/-- The next free slot as a number, masked (R57, R103). -/
theorem candidateHead_toNat (h : s.cfg.wf = true) :
    s.candidateHead.toNat = (s.head.toNat + 1) &&& (s.cfg.N - 1) :=
  (indexSucc_val h s.head).trans (and_mask h _).symm

/-- The handler on a full ring (R105): the byte read is dropped and the flag set. -/
theorem exec_isrRxc_full (htaken : s.rxc = true ∧ s.rxcie = true ∧ s.gie = true)
    (hfull : s.candidateHead = s.tail) :
    exec .isrRxc s = .next
      { s with
        rxc := false, rxData := Config.freeByte s.draws, draws := s.draws + 1, lastError := s.cfg.errFull,
        obs := { s.obs with dropped := s.obs.dropped ++ [s.rxData] } } := by
  refine exec_isrRxc_next.2 ⟨htaken, .inl ⟨isFull_eq_true.2 hfull, ?_⟩⟩
  simp only [State.enterInterrupt, State.afterDataRead, State.raiseOverflow, State.returnInterrupt, htaken]

/-- The handler with a free slot (R106): the byte read is stored there and `head` published. -/
theorem exec_isrRxc_free (htaken : s.rxc = true ∧ s.rxcie = true ∧ s.gie = true)
    (hfree : s.candidateHead ≠ s.tail) (hslot : s.candidateHead.toNat < s.cfg.N) :
    exec .isrRxc s = .next
      { s with
        rxc := false, rxData := Config.freeByte s.draws, draws := s.draws + 1,
        buf := s.buf.write s.candidateHead.toNat s.rxData, head := s.candidateHead,
        obs := { s.obs with accepted := s.obs.accepted ++ [s.rxData] } } := by
  refine exec_isrRxc_next.2 ⟨htaken, .inr ⟨isFull_eq_false.2 hfree, hslot, ?_⟩⟩
  simp only [State.enterInterrupt, State.afterDataRead, State.setSlot, State.publishHead,
    State.returnInterrupt, htaken]

/-- Settles O19: the masked sum is the next free slot, and it lies in the ring. -/
theorem isrRxcEffect : Obligations.IsrRxcEffect := by
  refine ⟨rfl, rfl, fun s hc => ?_⟩
  intro c
  have hval : s.candidateHead.toNat = c := candidateHead_toNat hc
  have hfull : s.candidateHead = s.tail ↔ c = s.tail.toNat := by rw [← BitVec.toNat_inj, hval]
  refine ⟨fun hrxc hie hgie hne => ?_, fun hrxc hie hgie heq => ?_, fun hoff => ?_⟩
  · rw [exec_isrRxc_free ⟨hrxc, hie, hgie⟩ (mt hfull.1 hne) (indexSucc_in_ring hc s.head), hval]
    exact ⟨_, _, rfl⟩
  · exact ⟨_, _, exec_isrRxc_full ⟨hrxc, hie, hgie⟩ (hfull.2 heq)⟩
  · exact exec_isrRxc_of_not_taken (Bool.eq_false_iff.2 (mt rxcTaken_iff.1 hoff))

/-- Settles O20: dropping touches no slot, storing only the next free one. -/
theorem isrRxcFrame : Obligations.IsrRxcFrame := by
  intro s t hw h c
  obtain ⟨⟨-, -, hgie⟩, ⟨hf, rfl⟩ | ⟨hf, hslot, ht⟩⟩ := exec_isrRxc_next.1 h
  · have hfull : c = s.tail := isFull_eq_true.1 hf
    exact ⟨fun hne => absurd hfull hne, fun a _ => slot?_congr (by simp) (by simp) a,
      by simp [hfull, hgie]⟩
  · have hfree : c ≠ s.tail := isFull_eq_false.1 hf
    have hstore : ∀ a, t.slot? a = if a = c.toNat ∧ c.toNat < s.cfg.N then some s.rxData else s.slot? a :=
      slot?_after_store hw (by simp [ht]) (by simp [ht, c])
    exact ⟨fun _ => (hstore c.toNat).trans (if_pos ⟨rfl, hslot⟩),
      fun a ha => (hstore a).trans (if_neg fun hac => ha.resolve_left hfree hac.1),
      by simp [ht, c, hfree, hgie]⟩

/-- The data register is read before the full test, so in both outcomes (R104). -/
theorem exec_isrRxc_rxc (h : exec .isrRxc s = .next t) : t.rxc = false := by
  obtain ⟨-, ⟨-, rfl⟩ | ⟨-, -, rfl⟩⟩ := exec_isrRxc_next.1 h <;> rfl

/-- Settles O21: the handler clears `rxc`, and without it the handler is not taken again. -/
theorem isrRxcAlwaysReadsTheDataRegister : Obligations.IsrRxcAlwaysReadsTheDataRegister := by
  intro s t h
  have hrxc := exec_isrRxc_rxc h
  refine ⟨hrxc, pending_of_not_rxc hrxc,
    exec_isrRxc_of_not_taken (by simp [State.rxcTaken, State.irqRxc, hrxc]), ?_⟩
  obtain ⟨-, ⟨-, rfl⟩ | ⟨-, -, rfl⟩⟩ := exec_isrRxc_next.1 h
  · exact .inr ⟨rfl, rfl⟩
  · exact .inl ⟨rfl, rfl⟩

/-- Settles O22: the ring is full exactly at count `N - 1`; below it the store pushes onto the queue. -/
theorem isrRxcEffectOnCount : Obligations.IsrRxcEffectOnCount := by
  intro s t hR hw h
  have hRt := exec_inRange hR h
  have hrxc := exec_isrRxc_rxc h
  obtain ⟨-, ⟨hfull, rfl⟩ | ⟨hfree, -, ht⟩⟩ := exec_isrRxc_next.1 h
  · have hcount := (isFull_iff hR).1 hfull
    exact ⟨fun hlt => absurd hcount hlt.ne, fun _ => ⟨count_congr rfl rfl rfl, rfl, rfl, rfl⟩, rfl,
      hrxc, rfl⟩
  · obtain ⟨hcount, hqueue⟩ := queue_push (t := t) (b := s.rxData) hR hw hfree (by simp [ht])
      (by simp [ht]) (by simp [ht]) (by simp [ht])
    refine ⟨fun _ => ⟨hcount, by simp [ht, State.candidateHead], hqueue, ?_⟩, fun hN => ?_,
      by simp [ht], hrxc, by simp [ht]⟩
    · rw [Bool.eq_false_iff, ne_eq, isEmpty_iff hRt, hcount]
      exact Nat.succ_ne_zero _
    · exact absurd ((isFull_iff hR).2 hN) (by simp [hfree])

end Sys2Proof.Machine
end

/-! The family of spec/42_consumer_pop.md: the three steps of a `getByte` and the read of the flag, and what
stays right between those steps. -/

section

namespace Sys2Proof.Machine

variable {s t : State} {i : Instr}

/-! ### The refusals -/

theorem exec_gbCheck_of_not_inited (hi : s.inited = false) :
    exec .gbCheck s = .refused .notInitialised := by
  simp only [exec, execGbCheck, hi, Bool.not_false, if_true]

theorem exec_gbCheck_of_busy (hi : s.inited = true) (hp : s.cphase ≠ .idle) :
    exec .gbCheck s = .refused .consumerBusy := by
  simp only [exec, execGbCheck, hi, Bool.not_true, Bool.false_eq_true, if_false, if_pos hp]

theorem exec_gbAdvance_of_phase (hp : s.cphase ≠ .nonempty) :
    exec .gbAdvance s = .refused .outOfSequence := if_neg hp

theorem exec_gbRead_of_phase (hp : s.cphase ≠ .advanced) :
    exec .gbRead s = .refused .outOfSequence := if_neg hp

theorem exec_getError_of_busy (hp : s.cphase ≠ .idle) :
    exec .getError s = .refused .consumerBusy := if_neg hp

/-- An init inside a `getByte` is refused, as a second init or as another call (R90, log entry 20). -/
theorem runInit_of_busy (f : State → State) (hp : s.cphase ≠ .idle) : ∃ r, runInit s f = .refused r := by
  cases hi : s.inited with
  | true => exact ⟨.initTwice, if_pos hi⟩
  | false => exact ⟨.consumerBusy, by simp [runInit, hi, hp]⟩

/-- R151: the three reasons for which SEND_BYTE is refused, in the order it looks for them. -/
theorem exec_sendByte_of_busy (b : Byte) (hp : s.cphase ≠ .idle) :
    ∃ r, exec (.sendByte b) s = .refused r := by
  cases hi : s.inited with
  | false => exact ⟨.notInitialised, by simp [exec, execSendByte, hi]⟩
  | true =>
    cases htx : s.txen with
    | false => exact ⟨.txDisabled, by simp [exec, execSendByte, hi, htx]⟩
    | true => exact ⟨.consumerBusy, by simp [exec, execSendByte, hi, htx, hp]⟩

/-- Settles O32: the inits, GB_CHECK, GET_ERROR and SEND_BYTE ask for C_IDLE, the other two for their own
phase. -/
theorem oneConsumerCallAtATime : Obligations.OneConsumerCallAtATime := by
  intro i s ha hp hadvance hread
  cases i with
  | reset | rxArrive _ | isrRxc | isrTxc | txDrain => cases ha
  | initRxIrq => exact runInit_of_busy (fun s => (s.configure true false true).unmask) hp
  | initTxOnly => exact runInit_of_busy (fun s => s.configure false true false) hp
  | initRxPolled => exact runInit_of_busy (fun s => s.configure true false false) hp
  | initTxrxPolled => exact runInit_of_busy (fun s => s.configure true true false) hp
  | gbCheck =>
    cases hi : s.inited with
    | false => exact ⟨_, exec_gbCheck_of_not_inited hi⟩
    | true => exact ⟨_, exec_gbCheck_of_busy hi hp⟩
  | gbAdvance => exact ⟨_, exec_gbAdvance_of_phase fun h => hadvance ⟨rfl, h⟩⟩
  | gbRead => exact ⟨_, exec_gbRead_of_phase fun h => hread ⟨rfl, h⟩⟩
  | getError => exact ⟨_, exec_getError_of_busy hp⟩
  | sendByte b => exact exec_sendByte_of_busy b hp

/-! ### The effects -/

theorem isEmpty_eq_true : s.isEmpty = true ↔ s.tail = s.head := beq_iff_eq.trans eq_comm

theorem isEmpty_eq_false : s.isEmpty = false ↔ s.tail ≠ s.head := beq_eq_false_iff_ne.trans ne_comm

/-- The masked window of GB_CHECK leaves no trace in either branch (R116, D10). -/
theorem exec_gbCheck_empty (hi : s.inited = true) (hp : s.cphase = .idle) (he : s.tail = s.head) :
    exec .gbCheck s = .next { s with returned := s.returned ++ [.getByte s.cfg.emptySentinel] } :=
  exec_gbCheck_next.2 ⟨hi, hp, .inl ⟨isEmpty_eq_true.2 he, rfl⟩⟩

theorem exec_gbCheck_nonempty (hi : s.inited = true) (hp : s.cphase = .idle) (hne : s.tail ≠ s.head) :
    exec .gbCheck s = .next { s with cphase := .nonempty } :=
  exec_gbCheck_next.2 ⟨hi, hp, .inr ⟨isEmpty_eq_false.2 hne, rfl⟩⟩

theorem exec_gbAdvance_nonempty (hp : s.cphase = .nonempty) :
    exec .gbAdvance s = .next { s with tail := indexSucc s.cfg s.tail, cphase := .advanced } :=
  exec_gbAdvance_next.2 ⟨hp, rfl⟩

theorem exec_gbRead_advanced {v : Byte} (hp : s.cphase = .advanced) (hv : s.slot? s.tail.toNat = some v) :
    exec .gbRead s = .next
      { s with
        cphase := .idle, obs := { s.obs with delivered := s.obs.delivered ++ [v] },
        returned := s.returned ++ [.getByte v] } := by
  simp only [exec, execGbRead, if_pos hp, hv]
  rfl

/-- Settles O26: the window restores `gie`, and the sentinel is fixed in a well-formed configuration. -/
theorem gbCheckEffect : Obligations.GbCheckEffect :=
  ⟨rfl, rfl, fun _ => ⟨fun hi hp he => ⟨exec_gbCheck_empty hi hp he, fun hc => (fixed_bytes hc).1⟩,
    exec_gbCheck_nonempty, exec_gbCheck_of_not_inited, exec_gbCheck_of_busy⟩⟩

/-- Settles O27: the successor is the masked sum by definition (R57). -/
theorem gbAdvanceEffect : Obligations.GbAdvanceEffect :=
  ⟨rfl, rfl, fun _ => ⟨exec_gbAdvance_nonempty, exec_gbAdvance_of_phase⟩⟩

/-- Settles O28: the byte is the one in slot `tail`, which exists below `N`. -/
theorem gbReadEffect : Obligations.GbReadEffect :=
  ⟨rfl, rfl, fun _ => ⟨fun _ => exec_gbRead_advanced, slot?_of_lt, exec_gbRead_of_phase⟩⟩

/-- Settles O30: neither the effect nor the refusal asks for `inited`. -/
theorem getErrorEffect : Obligations.GetErrorEffect :=
  ⟨rfl, rfl, fun _ => ⟨fun hp => exec_getError_next.2 ⟨hp, rfl⟩, exec_getError_of_busy⟩⟩

/-- Settles O31: of the fields named, GB_ADVANCE writes `tail` and GB_READ the bytes delivered, and the two
others write none. -/
theorem consumerFrame : Obligations.ConsumerFrame := by
  rintro i s t (rfl | rfl | rfl | rfl) h
  · obtain ⟨-, -, ⟨-, rfl⟩ | ⟨-, rfl⟩⟩ := exec_gbCheck_next.1 h <;>
      exact ⟨slot?_congr (by simp) (by simp), by simp⟩
  · obtain ⟨-, rfl⟩ := exec_gbAdvance_next.1 h
    exact ⟨slot?_congr (by simp) (by simp), by simp⟩
  · obtain ⟨-, -, rfl⟩ := exec_gbRead_next.1 h
    exact ⟨slot?_congr (by simp) (by simp), by simp⟩
  · obtain ⟨-, rfl⟩ := exec_getError_next.1 h
    exact ⟨slot?_congr (by simp) (by simp), by simp⟩

/-! ### Between the decision and the advance -/

/-- No operation takes a byte off the queue but the consumer's own GB_ADVANCE and a RESET, and these two leave
C_NONEMPTY. -/
theorem exec_count_le (hR : s.InRange) (hw : s.buf.wf = true) (h : exec i s = .next t) :
    s.count ≤ t.count ∨ ((i = .gbAdvance ∨ i = .reset) ∧ t.cphase ≠ .nonempty) := by
  cases exec_ringStep h with
  | powerOn => exact .inr ⟨.inr rfl, nofun⟩
  | advance => exact .inr ⟨.inl rfl, nofun⟩
  | store hfree =>
    exact .inl (Nat.le.intro (Eq.symm (And.left (queue_push hR hw hfree rfl rfl rfl rfl))))
  | drop | check | read => exact .inl le_rfl
  | same hr => exact .inl (count_congr hr.cfg hr.head hr.tail).ge

/-- A decision to read was there before, or is being made now, on a buffer that is not empty (R116). -/
theorem exec_nonempty_phase (h : exec i s = .next t) (hp : t.cphase = .nonempty) :
    s.cphase = .nonempty ∨ s.isEmpty = false := by
  cases exec_ringStep h with
  | powerOn | advance | read => cases hp
  | check _ hne => exact .inr hne
  | drop | store => exact .inl hp
  | same hr => exact .inl (hr.cphase.symm.trans hp)

theorem count_pos_of_not_isEmpty (hR : s.InRange) (hne : s.isEmpty = false) : 1 ≤ s.count :=
  Nat.one_le_iff_ne_zero.2 fun h0 => by simp [(isEmpty_iff hR).2 h0] at hne

theorem exec_decided (hR : s.InRange) (hw : s.buf.wf = true) (hd : s.cphase = .nonempty → 1 ≤ s.count)
    (h : exec i s = .next t) (hp : t.cphase = .nonempty) : 1 ≤ t.count := by
  have hpos : 1 ≤ s.count := (exec_nonempty_phase h hp).elim hd (count_pos_of_not_isEmpty hR)
  rcases exec_count_le hR hw h with hle | ⟨-, hleft⟩
  · exact hpos.trans hle
  · exact absurd hp hleft

/-- Settles O33: a decision is made on a non-empty buffer, and until the advance the count does not fall. -/
theorem nonemptyDecisionStaysRight : Obligations.NonemptyDecisionStaysRight := by
  constructor
  · intro s t hR hw h hd
    obtain rfl | ⟨i, ws, -, he⟩ := step_exec h
    · exact hd
    · exact exec_decided (s := { s with sched := ws }) (hR.congr {}) hw hd he
  · intro i s t hR hw _ h hlt
    rcases exec_count_le hR hw h with hle | ⟨hi, -⟩
    · exact absurd hlt hle.not_gt
    · exact hi

/-! ### One whole call -/

theorem runAll_cons_of_next {is : List Instr} (h : exec i s = .next t) :
    runAll (i :: is) s = runAll is t := by
  simp only [runAll, h]

theorem callGetByte_empty (hi : s.inited = true) (hp : s.cphase = .idle) (he : s.tail = s.head) :
    callGetByte s = .next { s with returned := s.returned ++ [.getByte s.cfg.emptySentinel] } := by
  rw [callGetByte, getByteSteps, if_pos (isEmpty_eq_true.2 he),
    runAll_cons_of_next (exec_gbCheck_empty hi hp he), runAll]

/-- GB_CHECK, GB_ADVANCE and GB_READ in a row (R120, R125): the slot read is the one after `tail`. -/
theorem callGetByte_nonempty {v : Byte} (hi : s.inited = true) (hp : s.cphase = .idle)
    (hne : s.tail ≠ s.head) (hv : s.slot? (indexSucc s.cfg s.tail).toNat = some v) :
    callGetByte s = .next
      { s with
        tail := indexSucc s.cfg s.tail,
        obs := { s.obs with delivered := s.obs.delivered ++ [v] },
        returned := s.returned ++ [.getByte v] } := by
  rw [callGetByte, getByteSteps, if_neg (by simp [isEmpty_eq_false.2 hne]),
    runAll_cons_of_next (exec_gbCheck_nonempty hi hp hne),
    runAll_cons_of_next (exec_gbAdvance_nonempty rfl),
    runAll_cons_of_next (exec_gbRead_advanced rfl hv), runAll, hp]

/-- The index successor as a number, masked (R57). -/
theorem indexSucc_toNat {c : Config} (h : c.wf = true) (j : Byte) :
    (indexSucc c j).toNat = (j.toNat + 1) &&& (c.N - 1) :=
  (indexSucc_val h j).trans (and_mask h _).symm

/-- Settles O34: the advance takes the oldest byte off the queue, and that byte is the one read. -/
theorem getByteCallEffect : Obligations.GetByteCallEffect := by
  intro s hR hi hp
  have hempty : s.tail = s.head ↔ s.count = 0 := isEmpty_eq_true.symm.trans (isEmpty_iff hR)
  refine ⟨fun hpos => ?_, fun h0 => ?_⟩
  · have hne : s.tail ≠ s.head := mt hempty.1 (Nat.one_le_iff_ne_zero.1 hpos)
    have hslot := slot?_of_lt (s := s) (indexSucc_in_ring hR.cfgWf s.tail)
    obtain ⟨hcount, hqueue⟩ := queue_advance (t := s.advanceTail) hR hpos rfl rfl rfl rfl
    refine ⟨_, _, ?_, ?_, callGetByte_nonempty hi hp hne hslot, rfl, hcount, ?_⟩
    · rw [← indexSucc_toNat hR.cfgWf, hslot]
    · rw [hqueue]; rfl
    · rw [hqueue]; rfl
  · rw [callGetByte_empty hi hp (hempty.2 h0), (fixed_bytes hR.cfgWf).1]

end Sys2Proof.Machine
end

/-! The family of spec/43_sync_handshake.md: which operation writes and which reads each shared field, what the
handler leaves to the consumer, and the ring as a bounded FIFO, in one step and over whole sequences. -/

section

namespace Sys2Proof.Machine

variable {s t u : State} {i : Instr}

/-! ### The ring invariant -/

/-- Settles O50: the invariant holds at startup, and every operation keeps it on a canonical storage. -/
theorem ringInvariantIsKept : Obligations.RingInvariantIsKept :=
  ⟨fun c ws hc => (resetMeetsEveryInvariant c ws hc).ring,
    fun _ hs => Nat.le_sub_one_of_lt (count_lt hs.inRange),
    fun _ _ hst hs => step_ringInv hst.canonical hs⟩

/-! ### The ring as a bounded FIFO -/

theorem Fifo.push_of_lt {f : Fifo} {cap : Nat} (h : f.items.length < cap) (b : Byte) :
    f.push cap b = { f with items := f.items ++ [b] } := if_pos h

theorem Fifo.push_of_full {f : Fifo} {cap : Nat} (h : f.items.length = cap) (b : Byte) :
    f.push cap b = { f with overflow := true } := if_neg h.not_lt

theorem queue_eq_nil (hR : s.InRange) : s.queue = [] ↔ s.isEmpty = true := by
  rw [isEmpty_iff hR, ← queue_length, List.length_eq_zero_iff]

/-- Nothing is left in the ring and the flag reads no error (R185). -/
theorem powerOn_fifo (hc : s.cfg.wf = true) : s.powerOn.fifo = { items := [], overflow := false } := by
  have hqueue : s.powerOn.queue = [] := queue_of_empty (inRange_of_zero hc rfl rfl) rfl
  have hflag : (s.cfg.errNone == s.cfg.errFull) = false := beq_eq_false_iff_ne.2 (codes_differ hc).symm
  simp [State.fifo, hqueue, hflag]

theorem count_lt_of_not_isFull (hR : s.InRange) (hf : s.isFull = false) : s.count < s.cfg.N - 1 :=
  (Nat.le_sub_one_of_lt (count_lt hR)).lt_of_ne fun hN => by simp [(isFull_iff hR).2 hN] at hf

/-- The handler's full test is the FIFO's (R105, R106): the ring is full at `N - 1` items. -/
theorem exec_isrRxc_fifo (hR : s.InRange) (hw : s.buf.wf = true) (h : exec .isrRxc s = .next t) :
    t.fifo = s.fifo.push s.cfg.usable s.rxData := by
  obtain ⟨hroom, -⟩ := isrRxcEffectOnCount s t hR hw h
  obtain ⟨-, ⟨hfull, rfl⟩ | ⟨hfree, -, rfl⟩⟩ := exec_isrRxc_next.1 h
  · rw [Fifo.push_of_full ((queue_length s).trans ((isFull_iff hR).1 hfull))]
    exact congrArg (Fifo.mk s.queue) (beq_self_eq_true s.cfg.errFull)
  · have hlt := count_lt_of_not_isFull hR hfree
    obtain ⟨-, -, hqueue, -⟩ := hroom hlt
    rw [Fifo.push_of_lt ((queue_length s).trans_lt hlt), State.fifo, hqueue]
    rfl

/-- The oldest item is popped, and slot `tail` now holds it (R117). -/
theorem exec_gbAdvance_fifo (hR : s.InRange) (hd : s.cphase = .nonempty → 1 ≤ s.count)
    (h : exec .gbAdvance s = .next t) :
    t.fifo = s.fifo.pop ∧ s.fifo.items.head? = some (t.buf.read t.tail.toNat) := by
  obtain ⟨hp, rfl⟩ := exec_gbAdvance_next.1 h
  obtain ⟨-, hqueue⟩ := queue_advance (t := s.advanceTail.setPhase .advanced) hR (hd hp) rfl rfl rfl rfl
  constructor
  · simp only [Fifo.pop, State.fifo, hqueue, List.tail_cons]
    rfl
  · simp only [State.fifo, hqueue, List.head?_cons]

/-- Every other operation leaves the queue and the flag alone (R141). -/
theorem exec_fifo_kept (hr : i ≠ .reset) (hn : i ≠ .isrRxc) (ha : i ≠ .gbAdvance)
    (h : exec i s = .next t) : t.fifo = s.fifo := by
  cases exec_ringStep h with
  | powerOn => exact absurd rfl hr
  | drop | store => exact absurd rfl hn
  | advance => exact absurd rfl ha
  | check | read => rfl
  | same ring => exact fifo_congr ring.cfg (queue_congr ring.cfg ring.buf ring.head ring.tail) ring.lastError

/-- Every operation is its step of the FIFO. -/
theorem exec_fifo (hR : s.InRange) (hw : s.buf.wf = true) (hd : s.cphase = .nonempty → 1 ≤ s.count)
    (h : exec i s = .next t) : t.fifo = fifoStep i s := by
  cases i with
  | reset => obtain rfl := exec_reset_next.1 h; exact powerOn_fifo hR.cfgWf
  | isrRxc => exact exec_isrRxc_fifo hR hw h
  | gbAdvance => exact (exec_gbAdvance_fifo hR hd h).1
  | _ => exact exec_fifo_kept (by simp) (by simp) (by simp) h

/-- The check hands the sentinel back exactly on an empty FIFO (R116). -/
theorem exec_gbCheck_fifo (hR : s.InRange) (h : exec .gbCheck s = .next t) :
    (s.fifo.items = [] ∧ t.returned = s.returned ++ [.getByte 0x00]) ∨
      (s.fifo.items ≠ [] ∧ t.returned = s.returned ∧ t.cphase = .nonempty) := by
  have hempty : s.fifo.items = [] ↔ s.isEmpty = true := queue_eq_nil hR
  obtain ⟨-, -, ⟨he, rfl⟩ | ⟨hne, rfl⟩⟩ := exec_gbCheck_next.1 h
  · exact .inl ⟨hempty.2 he, by simp [(fixed_bytes hR.cfgWf).1]⟩
  · exact .inr ⟨by simp [hempty, hne], rfl, rfl⟩

/-- Settles O57: each operation's step of the FIFO, and the values the consumer's operations hand back. -/
theorem ringRefinesABoundedFifo : Obligations.RingRefinesABoundedFifo := by
  intro i s t hR hst hd h
  refine ⟨exec_fifo hR hst.canonical hd h, ?_, ?_, ?_⟩
  · rintro rfl
    exact (exec_gbAdvance_fifo hR hd h).2
  · rintro rfl
    obtain ⟨-, -, rfl⟩ := exec_gbRead_next.1 h
    rfl
  · rintro rfl
    exact exec_gbCheck_fifo hR h

/-! ### What the handler leaves to the consumer -/

/-- The handler writes no slot but the next free one, and that one not on a full ring (R137). -/
theorem exec_isrRxc_slot {a : Nat} (hw : s.buf.wf = true) (h : exec .isrRxc s = .next t)
    (ha : s.isFull = true ∨ a ≠ s.candidateHead.toNat) : t.slot? a = s.slot? a := by
  obtain ⟨-, hslot, -⟩ := isrRxcFrame s t hw h
  exact hslot a (ha.imp_left isFull_eq_true.1)

/-- The slot of the byte being read is not the next free one. -/
theorem exec_isrRxc_slot_tail (hw : s.buf.wf = true) (h : exec .isrRxc s = .next t) :
    t.slot? s.tail.toNat = s.slot? s.tail.toNat :=
  exec_isrRxc_slot hw h <| (Bool.eq_false_or_eq_true s.isFull).imp_right tail_ne_candidateHead

theorem exec_isrRxc_inflight (hR : s.InRange) (hw : s.buf.wf = true) (h : exec .isrRxc s = .next t) :
    t.inflight = s.inflight := by
  obtain ⟨-, -, htail, -, hphase⟩ := isrRxcEffectOnCount s t hR hw h
  have hR' := exec_inRange hR h
  have hread : t.buf.read t.tail.toNat = s.buf.read s.tail.toNat := by
    have hslot := exec_isrRxc_slot_tail hw h
    rw [← htail, slot?_of_lt hR'.tailIn, htail, slot?_of_lt hR.tailIn] at hslot
    rw [htail]
    exact Option.some.inj hslot
  simp only [State.inflight, hphase, hread]

/-- Settles O23: the one slot written is the next free one, which is neither slot `tail` nor that of an
undelivered byte. -/
theorem protectedSlots : Obligations.ProtectedSlots := by
  intro s t hR hw h
  refine ⟨fun a ha => ?_, exec_isrRxc_slot_tail hw h, exec_isrRxc_inflight hR hw h, fun hN => ?_,
    fun k _ hk => exec_isrRxc_slot hw h ?_⟩
  · have hwritten := mt (exec_isrRxc_slot hw h) ha
    rw [not_or, not_not, Bool.not_eq_true] at hwritten
    obtain ⟨hfree, rfl⟩ := hwritten
    exact ⟨candidateHead_toNat hR.cfgWf, (tail_ne_candidateHead hfree).symm⟩
  · obtain ⟨-, hfull, -⟩ := isrRxcEffectOnCount s t hR hw h
    obtain ⟨-, -, hbuf, -⟩ := hfull hN
    exact hbuf
  · exact (Bool.eq_false_or_eq_true s.isFull).imp_right (slotAfterTail_ne_candidate hR hk)

/-! ### One writer per field -/

theorem exec_tail (hr : i ≠ .reset) (ha : i ≠ .gbAdvance) (h : exec i s = .next t) : t.tail = s.tail := by
  cases exec_ringStep h with
  | powerOn => exact absurd rfl hr
  | advance => exact absurd rfl ha
  | drop | store | check | read => rfl
  | same ring => exact ring.tail

/-- R24: the handler raises the flag, and no other operation writes it. -/
theorem exec_lastError (hr : i ≠ .reset) (h : exec i s = .next t) :
    t.lastError = s.lastError ∨ (i = .isrRxc ∧ t.lastError = s.cfg.errFull) := by
  cases exec_ringStep h with
  | powerOn => exact absurd rfl hr
  | drop => exact .inr ⟨rfl, rfl⟩
  | store | check | advance | read => exact .inl rfl
  | same ring => exact .inl ring.lastError

/-- R37: the handlers and the masked window put `gie` back, and no init but INIT_RX_IRQ writes it. -/
theorem exec_gie (hr : i ≠ .reset) (h : exec i s = .next t) :
    t.gie = s.gie ∨ (i = .initRxIrq ∧ t.gie = true) := by
  cases hi : s.inited with
  | true => exact .inl (exec_sameMode hi hr h).gie
  | false =>
    cases i with
    | reset => exact absurd rfl hr
    | initRxIrq => obtain ⟨-, -, rfl⟩ := exec_initRxIrq_next.1 h; exact .inr ⟨rfl, rfl⟩
    | initTxOnly => obtain ⟨-, -, rfl⟩ := exec_initTxOnly_next.1 h; exact .inl rfl
    | initRxPolled => obtain ⟨-, -, rfl⟩ := exec_initRxPolled_next.1 h; exact .inl rfl
    | initTxrxPolled => obtain ⟨-, -, rfl⟩ := exec_initTxrxPolled_next.1 h; exact .inl rfl
    | rxArrive b =>
      obtain ⟨-, rfl⟩ | ⟨-, -, rfl⟩ | ⟨-, -, rfl⟩ := exec_rxArrive_next.1 h <;> exact .inl rfl
    | isrRxc =>
      obtain ⟨⟨-, -, hgie⟩, ⟨-, rfl⟩ | ⟨-, -, rfl⟩⟩ := exec_isrRxc_next.1 h <;> exact .inl hgie.symm
    | isrTxc => obtain rfl := exec_isrTxc_next.1 h; exact .inl rfl
    | gbCheck => obtain ⟨-, -, ⟨-, rfl⟩ | ⟨-, rfl⟩⟩ := exec_gbCheck_next.1 h <;> exact .inl rfl
    | gbAdvance => obtain ⟨-, rfl⟩ := exec_gbAdvance_next.1 h; exact .inl rfl
    | gbRead => obtain ⟨-, -, rfl⟩ := exec_gbRead_next.1 h; exact .inl rfl
    | getError => obtain ⟨-, rfl⟩ := exec_getError_next.1 h; exact .inl rfl
    | sendByte b => obtain ⟨-, ⟨-, rfl⟩ | ⟨-, rfl⟩⟩ := exec_sendByte_next.1 h <;> exact .inl rfl
    | txDrain => obtain ⟨-, rfl⟩ | ⟨-, rfl⟩ := exec_txDrain_next.1 h <;> exact .inl rfl

/-- Settles O44: an operation other than the writer leaves the field as it was. -/
theorem oneWriterPerField : Obligations.OneWriterPerField := by
  intro i s t hr h
  refine ⟨fun hne => ?_, fun ⟨a, hne⟩ => ?_, fun hne => ?_, (exec_lastError hr h).resolve_left,
    (exec_gie hr h).resolve_left⟩
  · by_contra hn
    exact hne (exec_buf_head hr hn h).2
  · by_contra hn
    exact hne (slot?_congr (exec_cfg_sched h).1 (exec_buf_head hr hn h).1 a)
  · by_contra hn
    exact hne (exec_tail hr hn h)

/-! ### Who reads `head` and `cphase` -/

/-- A change of the state made before an initialisation is still there after it, if the test of R90 does not see
it and the body keeps it. -/
theorem runInit_comm (f g : State → State) (hi : (g s).inited = s.inited) (hp : (g s).cphase = s.cphase)
    (hf : (f (g s)).markInited = g (f s).markInited) : runInit (g s) f = mapNext g (runInit s f) := by
  simp only [runInit, apply_ite (mapNext g), hi, hp, hf]
  rfl

/-- The state with another published `head`, and everything else as it was. -/
def State.withHead (s : State) (h : Byte) : State := { s with head := h }

/-- R131: outside the masked window and the handler no operation reads `head`, or writes it. -/
theorem exec_withHead (s : State) (b : Byte) (hr : i ≠ .reset) (hc : i ≠ .gbCheck) (hn : i ≠ .isrRxc) :
    exec i (s.withHead b) = mapNext (·.withHead b) (exec i s) := by
  cases i with
  | reset => exact absurd rfl hr
  | gbCheck => exact absurd rfl hc
  | isrRxc => exact absurd rfl hn
  | initRxIrq =>
    exact runInit_comm (fun s => (s.configure true false true).unmask) (·.withHead b) rfl rfl rfl
  | initTxOnly => exact runInit_comm (fun s => s.configure false true false) (·.withHead b) rfl rfl rfl
  | initRxPolled => exact runInit_comm (fun s => s.configure true false false) (·.withHead b) rfl rfl rfl
  | initTxrxPolled => exact runInit_comm (fun s => s.configure true true false) (·.withHead b) rfl rfl rfl
  | rxArrive _ => simp only [exec, execRxArrive, apply_ite (mapNext _)]; rfl
  | isrTxc => simp only [exec, execIsrTxc, apply_ite (mapNext _)]; rfl
  | gbAdvance => simp only [exec, execGbAdvance, apply_ite (mapNext _)]; rfl
  | gbRead =>
    have hslot : (s.withHead b).slot? (s.withHead b).tail.toNat = s.slot? s.tail.toNat := rfl
    simp only [exec, execGbRead, apply_ite (mapNext _), hslot]
    cases s.slot? s.tail.toNat <;> rfl
  | getError => simp only [exec, execGetError, apply_ite (mapNext _)]; rfl
  | sendByte _ => simp only [exec, execSendByte, apply_ite (mapNext _)]; rfl
  | txDrain => simp only [exec, execTxDrain, apply_ite (mapNext _)]; rfl

theorem push_setPhase (s : State) (p : CPhase) (b : Byte) :
    (s.setPhase p).push b = (s.push b).map (·.setPhase p) := by
  simp only [State.push, State.storeSlot, apply_ite (Option.map _), Option.map_some, Option.map_none]
  rfl

/-- V19: the handler takes the interrupt, reads the data register and pushes alike, wherever the consumer
stands. -/
theorem exec_isrRxc_setPhase (s : State) (p : CPhase) :
    exec .isrRxc (s.setPhase p) = mapNext (·.setPhase p) (exec .isrRxc s) := by
  have htaken : (s.setPhase p).rxcTaken = s.rxcTaken := rfl
  have hread : (s.setPhase p).enterInterrupt.afterDataRead =
      s.enterInterrupt.afterDataRead.setPhase p := rfl
  simp only [exec, execIsrRxc, apply_ite (mapNext _), htaken, hread, push_setPhase, State.setPhase_rxData]
  cases s.enterInterrupt.afterDataRead.push s.rxData <;> rfl

/-- Settles O45: the operations but the window and the handler commute with a change of `head`, and the handler
with a change of `cphase`. -/
theorem headIsReadOnlyInTheWindow : Obligations.HeadIsReadOnlyInTheWindow :=
  ⟨fun _ s h hr hc hn => exec_withHead s h hr hc hn, exec_isrRxc_setPhase⟩

/-! ### The order of delivery -/

/-- No operation but RESET takes an observation back (R15, R185). -/
theorem exec_obs_extend (h : exec i s = .next t) :
    t.obs = {} ∨ s.obs.arrived <+: t.obs.arrived ∧ s.obs.accepted <+: t.obs.accepted ∧
      s.obs.delivered <+: t.obs.delivered := by
  cases i with
  | reset => obtain rfl := exec_reset_next.1 h; exact .inl rfl
  | initRxIrq => obtain ⟨-, -, rfl⟩ := exec_initRxIrq_next.1 h; exact .inr (by simp)
  | initTxOnly => obtain ⟨-, -, rfl⟩ := exec_initTxOnly_next.1 h; exact .inr (by simp)
  | initRxPolled => obtain ⟨-, -, rfl⟩ := exec_initRxPolled_next.1 h; exact .inr (by simp)
  | initTxrxPolled => obtain ⟨-, -, rfl⟩ := exec_initTxrxPolled_next.1 h; exact .inr (by simp)
  | rxArrive b =>
    obtain ⟨-, rfl⟩ | ⟨-, -, rfl⟩ | ⟨-, -, rfl⟩ := exec_rxArrive_next.1 h <;> exact .inr (by simp)
  | isrRxc => obtain ⟨-, ⟨-, rfl⟩ | ⟨-, -, rfl⟩⟩ := exec_isrRxc_next.1 h <;> exact .inr (by simp)
  | isrTxc => obtain rfl := exec_isrTxc_next.1 h; exact .inr (by simp)
  | gbCheck => obtain ⟨-, -, ⟨-, rfl⟩ | ⟨-, rfl⟩⟩ := exec_gbCheck_next.1 h <;> exact .inr (by simp)
  | gbAdvance => obtain ⟨-, rfl⟩ := exec_gbAdvance_next.1 h; exact .inr (by simp)
  | gbRead => obtain ⟨-, -, rfl⟩ := exec_gbRead_next.1 h; exact .inr (by simp)
  | getError => obtain ⟨-, rfl⟩ := exec_getError_next.1 h; exact .inr (by simp)
  | sendByte b => obtain ⟨-, ⟨-, rfl⟩ | ⟨-, rfl⟩⟩ := exec_sendByte_next.1 h <;> exact .inr (by simp)
  | txDrain => obtain ⟨-, rfl⟩ | ⟨-, rfl⟩ := exec_txDrain_next.1 h <;> exact .inr (by simp)

theorem State.RingInv.delivered_prefix (h : s.RingInv) : s.obs.delivered <+: s.obs.accepted := by
  rw [h.conserved, List.append_assoc]
  exact List.prefix_append _ _

theorem State.TraceInv.accepted_sublist (h : s.TraceInv) : s.obs.accepted.Sublist s.obs.arrived :=
  ((List.sublist_append_left _ _).trans h.acceptedInOrder).trans h.latchedInOrder

/-- Settles O55: the invariants hold after the step; the ring's splits what was accepted, the observations' what
the receiver kept. -/
theorem deliveryKeepsArrivalOrder : Obligations.DeliveryKeepsArrivalOrder := by
  intro s t hs h
  have ht := step_inv hs h
  have haccepted := ht.trace.accepted_sublist
  have hprefix := ht.ring.delivered_prefix
  refine ⟨hprefix, hprefix.sublist.trans haccepted, haccepted, ?_, ?_⟩
  · rw [← ht.ring.conserved]
    exact ht.trace.accounted.symm
  · obtain rfl | ⟨i, ws, -, he⟩ := step_exec h
    · exact .inr ⟨List.prefix_rfl, List.prefix_rfl, List.prefix_rfl⟩
    · exact exec_obs_extend (s := { s with sched := ws }) he

/-! ### The capacity -/

/-- The bytes the ring still takes (R142). -/
def State.room (s : State) : Nat := s.cfg.N - 1 - s.count

/-- What bytes `bs` do that arrive and are handled one after the other, with no consumption in between (R142):
the ring takes as many as it has room for, and drops the others. -/
structure State.Produced (s : State) (bs : List Byte) (t : State) : Prop where
  cfg : t.cfg = s.cfg
  tail : t.tail = s.tail
  queue : t.queue = s.queue ++ bs.take s.room
  accepted : t.obs.accepted = s.obs.accepted ++ bs.take s.room
  dropped : t.obs.dropped = s.obs.dropped ++ bs.drop s.room
  arrived : t.obs.arrived = s.obs.arrived ++ bs
  hwOverrun : t.hwOverrun = s.hwOverrun
  lastError : t.lastError = if bs.length ≤ s.room then s.lastError else s.cfg.errFull

theorem State.Produced.nil (s : State) : s.Produced [] s := by
  constructor <;> simp

theorem State.Produced.room {bs : List Byte} (h : s.Produced bs t) : t.room = s.room - bs.length := by
  have hlen := congrArg List.length h.queue
  simp only [List.length_append, List.length_take, queue_length] at hlen
  simp only [State.room, h.cfg] at *
  omega

theorem State.Produced.append {bs cs : List Byte} (h : s.Produced bs u) (h' : u.Produced cs t) :
    s.Produced (bs ++ cs) t := by
  have hroom := h.room
  constructor
  · rw [h'.cfg, h.cfg]
  · rw [h'.tail, h.tail]
  · rw [h'.queue, h.queue, hroom, List.take_append, List.append_assoc]
  · rw [h'.accepted, h.accepted, hroom, List.take_append, List.append_assoc]
  · rw [h'.dropped, h.dropped, hroom, List.drop_append, List.append_assoc]
  · rw [h'.arrived, h.arrived, List.append_assoc]
  · rw [h'.hwOverrun, h.hwOverrun]
  · rw [h'.lastError, h.lastError, hroom, h.cfg, List.length_append, ← ite_and]
    exact if_congr (by omega) rfl rfl

/-- An armed receiver over a ring that the ring's rules apply to. -/
structure State.Receiving (s : State) : Prop where
  inRange : s.InRange
  storage : s.StorageOk
  armed : s.Armed

/-- R105: with no room left the byte is dropped and the flag set. -/
theorem exec_isrRxc_drops (hs : s.Receiving) (hf : s.isFull = true) (b : Byte) :
    ∃ t, exec .isrRxc (s.latch b) = .next t ∧ s.Produced [b] t := by
  have hroom : s.room = 0 := by simp [State.room, (isFull_iff hs.inRange).1 hf]
  refine ⟨_, exec_isrRxc_next.2 ⟨⟨rfl, hs.armed.rxcie, hs.armed.gie⟩, .inl ⟨hf, rfl⟩⟩, ?_⟩
  constructor
  case queue | accepted => rw [hroom]; exact (List.append_nil _).symm
  case dropped | lastError => rw [hroom]; rfl
  all_goals rfl

/-- R106: with room left the byte goes to the end of the queue. -/
theorem exec_isrRxc_stores (hs : s.Receiving) (hf : s.isFull = false) (b : Byte) :
    ∃ t, exec .isrRxc (s.latch b) = .next t ∧ s.Produced [b] t := by
  have hroom : [b].length ≤ s.room := Nat.sub_pos_of_lt (count_lt_of_not_isFull hs.inRange hf)
  refine ⟨_, exec_isrRxc_next.2 ⟨⟨rfl, hs.armed.rxcie, hs.armed.gie⟩,
    .inr ⟨hf, hs.inRange.candidateHead_lt, rfl⟩⟩, ?_⟩
  constructor
  case queue =>
    rw [List.take_of_length_le hroom]
    exact And.right (queue_push hs.inRange hs.storage.canonical hf rfl rfl rfl rfl)
  case accepted => rw [List.take_of_length_le hroom]; rfl
  case dropped => rw [List.drop_eq_nil_of_le hroom]; exact (List.append_nil _).symm
  case lastError => exact (if_pos hroom).symm
  all_goals rfl

theorem exec_isrRxc_armed (hon : s.rxen = true) (h : exec .isrRxc s = .next t) : t.Armed := by
  obtain ⟨⟨-, hie, -⟩, ⟨-, rfl⟩ | ⟨-, -, rfl⟩⟩ := exec_isrRxc_next.1 h <;> exact ⟨hon, hie, rfl, rfl⟩

/-- One byte arrives and its handler runs (R101, R103). -/
theorem exists_produced_one (hs : s.Receiving) (b : Byte) :
    ∃ t, runAll [.rxArrive b, .isrRxc] s = .next t ∧ s.Produced [b] t ∧ t.Receiving := by
  have harrive : exec (.rxArrive b) s = .next (s.latch b) :=
    exec_rxArrive_next.2 (.inr (.inl ⟨hs.armed.rxen, hs.armed.ready, rfl⟩))
  obtain ⟨t, ht, hproduced⟩ : ∃ t, exec .isrRxc (s.latch b) = .next t ∧ s.Produced [b] t := by
    cases hf : s.isFull with
    | true => exact exec_isrRxc_drops hs hf b
    | false => exact exec_isrRxc_stores hs hf b
  refine ⟨t, ?_, hproduced, ?_⟩
  · rw [runAll_cons_of_next harrive, runAll_cons_of_next ht, runAll]
  · constructor
    · exact exec_inRange (exec_inRange hs.inRange harrive) ht
    · exact exec_storageOk (exec_storageOk hs.storage harrive) ht
    · exact exec_isrRxc_armed (s := s.latch b) hs.armed.rxen ht

theorem exists_produced (hs : s.Receiving) (bs : List Byte) :
    ∃ t, runAll (produceSteps bs) s = .next t ∧ s.Produced bs t := by
  induction bs generalizing s with
  | nil => exact ⟨s, rfl, .nil s⟩
  | cons b bs ih =>
    obtain ⟨u, hrun, hone, hu⟩ := exists_produced_one hs b
    obtain ⟨t, hrest, hmore⟩ := ih hu
    refine ⟨t, ?_, hone.append hmore⟩
    rw [produceSteps, List.flatMap_cons, runAll_append, hrun]
    exact hrest

/-- Settles O58: an empty ring has room for `N - 1` bytes. -/
theorem capacityIsOneLessThanN : Obligations.CapacityIsOneLessThanN := by
  intro s bs hR hst harmed he
  have hqueue := queue_of_empty hR he
  have hroom : s.room = s.cfg.N - 1 := by rw [State.room, ← queue_length, hqueue]; rfl
  obtain ⟨t, hrun, hp⟩ := exists_produced ⟨hR, hst, harmed⟩ bs
  rw [← hroom]
  exact ⟨t, hrun, by simpa [hqueue] using hp.queue, hp.tail, hp.accepted, hp.dropped, hp.arrived,
    hp.hwOverrun, hp.lastError⟩

/-! ### Draining the ring -/

/-- What is left when the consumer has fetched every byte that `s` held (R142). -/
structure State.Drained (s t : State) : Prop where
  inRange : t.InRange
  inited : t.inited = true
  noCall : t.cphase = .idle
  empty : t.head = t.tail
  head : t.head = s.head
  lastError : t.lastError = s.lastError
  returned : t.returned = s.returned ++ s.queue.map .getByte

theorem callGetByte_of_not_isEmpty (he : s.isEmpty = false) :
    callGetByte s = runAll [.gbCheck, .gbAdvance, .gbRead] s := by
  simp [callGetByte, getByteSteps, he]

/-- Each call takes the oldest byte off the queue and hands it back (R125). -/
theorem exists_drained {k : Nat} (hk : s.count = k) (hR : s.InRange) (hi : s.inited = true)
    (hp : s.cphase = .idle) : ∃ t, runAll (consumeSteps k) s = .next t ∧ s.Drained t := by
  induction k generalizing s with
  | zero =>
    have hempty : s.tail = s.head := isEmpty_eq_true.1 ((isEmpty_iff hR).2 hk)
    exact ⟨s, rfl, hR, hi, hp, hempty.symm, rfl, rfl, by simp [queue_of_empty hR hempty.symm]⟩
  | succ k ih =>
    have hne : s.isEmpty = false :=
      Bool.eq_false_iff.2 fun he => by simp [(isEmpty_iff hR).1 he] at hk
    obtain ⟨hcall, -⟩ := getByteCallEffect s hR hi hp
    obtain ⟨v, u, -, holdest, hrun, rfl, hcount, hothers⟩ := hcall (by omega)
    rw [callGetByte_of_not_isEmpty hne] at hrun
    obtain ⟨t, hrest, ht⟩ := ih (Nat.succ.inj (hcount.trans hk))
      ⟨hR.cfgWf, hR.headIn, indexSucc_in_ring hR.cfgWf _⟩ hi hp
    refine ⟨t, ?_, ht.inRange, ht.inited, ht.noCall, ht.empty, ht.head, ht.lastError, ?_⟩
    · rw [consumeSteps, List.replicate_succ, List.flatten_cons, runAll_append, hrun]
      exact hrest
    · rw [ht.returned, hothers, ← List.cons_head?_tail holdest, List.map_cons, List.append_assoc,
        List.singleton_append, List.tail_cons]

/-- Settles O59: each call hands back the oldest byte, and the call after the last finds the ring empty. -/
theorem drainingReturnsTheBytesInOrder : Obligations.DrainingReturnsTheBytesInOrder := by
  intro s hR hi hp
  obtain ⟨t, hrun, ht⟩ := exists_drained rfl hR hi hp
  refine ⟨t, hrun, ht.returned, queue_of_empty ht.inRange ht.empty, ht.empty, ht.head, ht.lastError,
    ht.noCall, ?_⟩
  rw [callGetByte_empty ht.inited ht.noCall ht.empty.symm, (fixed_bytes ht.inRange.cfgWf).1]

end Sys2Proof.Machine
end

/-! The family of spec/44_transmit_path.md: the write of the data register and its drain, a line sent through
both, and the call that waits between them. -/

section

namespace Sys2Proof.Machine

variable {s t : State} {i : Instr} {b : Byte}

/-! ### The effects -/

theorem exec_sendByte_writes (hi : s.inited = true) (htx : s.txen = true) (hp : s.cphase = .idle)
    (hu : s.udre = true) :
    exec (.sendByte b) s = .next { s with txData := b, udre := false, held := none } :=
  exec_sendByte_next.2 ⟨⟨hi, htx, hp⟩, .inr ⟨hu, rfl⟩⟩

theorem exec_sendByte_waits (hi : s.inited = true) (htx : s.txen = true) (hp : s.cphase = .idle)
    (hu : s.udre = false) : exec (.sendByte b) s = .next { s with held := some b } :=
  exec_sendByte_next.2 ⟨⟨hi, htx, hp⟩, .inl ⟨hu, rfl⟩⟩

theorem exec_txDrain_latches (htx : s.txen = true) (hu : s.udre = false) :
    exec .txDrain s = .next { s with udre := true, obs := { s.obs with wire := s.obs.wire ++ [s.txData] } } :=
  exec_txDrain_next.2 (.inl ⟨⟨htx, hu⟩, rfl⟩)

/-- Settles O35: the tests come in the order init, transmitter, `getByte`, and `udre` last. -/
theorem sendByteEffect : Obligations.SendByteEffect := by
  refine fun b s => ⟨command_eq_or 0xC b, rfl, exec_sendByte_writes, exec_sendByte_waits,
    fun hi => ?_, fun hi htx => ?_, fun hi htx hp => ?_⟩
  · simp [exec, execSendByte, hi]
  · simp [exec, execSendByte, hi, htx]
  · simp [exec, execSendByte, hi, htx, hp]

/-- Settles O36: with the transmitter on and `udre` 0 there is a byte to latch. -/
theorem txDrainEffect : Obligations.TxDrainEffect := ⟨rfl, rfl, fun _ => exec_txDrain_latches⟩

/-- Settles O37: SEND_BYTE writes only `tx_data`, `udre` and the waiting call, TX_DRAIN only `udre` and the wire. -/
theorem transmitFrame : Obligations.TransmitFrame := by
  rintro i s t (⟨b, rfl⟩ | rfl) h
  · obtain ⟨-, ⟨-, rfl⟩ | ⟨-, rfl⟩⟩ := exec_sendByte_next.1 h <;>
      exact ⟨slot?_congr (by simp) (by simp), by simp⟩
  · obtain ⟨-, rfl⟩ | ⟨-, rfl⟩ := exec_txDrain_next.1 h <;>
      exact ⟨slot?_congr (by simp) (by simp), by simp⟩

/-! ### Sending a line -/

/-- Once `b` was sent and latched: it is on the wire, and still in the data register. -/
def State.transmit (s : State) (b : Byte) : State :=
  { s with txData := b, obs := { s.obs with wire := s.obs.wire ++ [b] } }

/-- The drain leaves the data register as empty as the byte found it (R153). -/
theorem runAll_send_one (hi : s.inited = true) (htx : s.txen = true) (hp : s.cphase = .idle)
    (hu : s.udre = true) (hh : s.held = none) (b : Byte) :
    runAll [.sendByte b, .txDrain] s = .next (s.transmit b) := by
  have hdrain := exec_txDrain_latches (s := { s with txData := b, udre := false, held := none }) htx rfl
  rw [runAll_cons_of_next (exec_sendByte_writes hi htx hp hu), runAll_cons_of_next hdrain, runAll,
    State.transmit, hu, hh]

/-- The bytes go to the wire in order, and the last one stays in the data register (R153). -/
theorem runAll_sendSteps (hi : s.inited = true) (htx : s.txen = true) (hp : s.cphase = .idle)
    (hu : s.udre = true) (hh : s.held = none) (bs : List Byte) (c : Byte) :
    runAll (sendSteps (bs ++ [c])) s =
      .next { s with txData := c, obs := { s.obs with wire := s.obs.wire ++ (bs ++ [c]) } } := by
  induction bs generalizing s with
  | nil => exact runAll_send_one hi htx hp hu hh c
  | cons b bs ih =>
    rw [List.cons_append, sendSteps, List.flatMap_cons, runAll_append, runAll_send_one hi htx hp hu hh b]
    refine (ih (s := s.transmit b) hi htx hp hu hh).trans ?_
    simp only [State.transmit, List.append_assoc, List.singleton_append]

/-- A line without a zero ends at the first zero after it (R79, R83). -/
theorem sendLineSteps_of_terminated (c : Config) {line : List Byte} (rest : List Byte)
    (h : ∀ b ∈ line, b ≠ 0x00) :
    sendLineSteps c (line ++ 0x00 :: rest) = some ((line ++ [c.newline]).map .sendByte) := by
  have hwf : lineWf (line ++ 0x00 :: rest) = true := by simp [lineWf, Config.terminator]
  have hkept : ∀ b ∈ line, (b != Config.terminator) = true := fun b hb => bne_iff_ne.2 (h b hb)
  have hpayload : linePayload c (line ++ 0x00 :: rest) = line ++ [c.newline] := by
    rw [linePayload, List.takeWhile_append_of_pos hkept,
      List.takeWhile_cons_of_neg (by simp [Config.terminator]), List.append_nil]
  rw [sendLineSteps, if_pos hwf, hpayload]

/-- Settles O38: the line is cut at its terminator, and its bytes and the newline are sent one by one. -/
theorem sendLineTransmitsThePayload : Obligations.SendLineTransmitsThePayload :=
  fun s line rest hi htx hp hu hh hne =>
    ⟨sendLineSteps_of_terminated s.cfg rest hne, runAll_sendSteps hi htx hp hu hh line s.cfg.newline,
      fun hc => (fixed_bytes hc).2⟩

/-! ### The waiting call -/

/-- The other agents leave the consumer where it is, RESET apart (R151 corner case (a)). -/
theorem exec_other_keeps_consumer (ha : agentOf i ≠ .consumer) (hr : i ≠ .reset)
    (h : exec i s = .next t) : t.held = s.held ∧ t.tail = s.tail ∧ t.cphase = s.cphase ∧
      t.returned = s.returned ∧ t.obs.delivered = s.obs.delivered ∧ t.txData = s.txData := by
  cases i with
  | reset => exact absurd rfl hr
  | rxArrive b => obtain ⟨-, rfl⟩ | ⟨-, -, rfl⟩ | ⟨-, -, rfl⟩ := exec_rxArrive_next.1 h <;> simp
  | isrRxc => obtain ⟨-, ⟨-, rfl⟩ | ⟨-, -, rfl⟩⟩ := exec_isrRxc_next.1 h <;> simp
  | isrTxc => obtain rfl := exec_isrTxc_next.1 h; simp
  | txDrain => obtain ⟨-, rfl⟩ | ⟨-, rfl⟩ := exec_txDrain_next.1 h <;> simp
  | _ => exact absurd rfl ha

/-- A call that waits has a turn of its own, whatever the schedule offers. -/
theorem fetch_ne_idle_of_held (hh : s.held = some b) : s.fetch ≠ .idle := by
  cases hc : s.cfg.wf with
  | false => simp [State.fetch, hc]
  | true => rw [fetch_of_held_some hc hh, State.fetchHeld]; split <;> exact nofun

/-- With a call waiting, a step is the call's own or one operation of another agent. -/
theorem step_of_held (hh : s.held = some b) (h : step s = .next t) :
    exec (.sendByte b) s = .next t ∨
      ∃ i ws, agentOf i ≠ .consumer ∧ exec i { s with sched := ws } = .next t := by
  rcases step_next h with ⟨hidle, -⟩ | ⟨i, s', hf, he⟩
  · exact absurd hidle (fetch_ne_idle_of_held hh)
  · rcases (fetch_run hf).2 with ⟨hnone, -⟩ | ⟨c, hc, rfl, rfl⟩ | ⟨-, ha, pre, -, post, -, -, rfl⟩
    · simp [hh] at hnone
    · obtain rfl : b = c := Option.some.inj (hh.symm.trans hc)
      exact .inl he
    · exact .inr ⟨i, pre ++ post, ha, he⟩

/-- Settles O39: the call's own step waits on, and another agent's leaves the consumer where it is. -/
theorem waitingConsumerTakesNoOtherStep : Obligations.WaitingConsumerTakesNoOtherStep := by
  intro s t b hh hu hi htx hp h
  rcases step_of_held hh h with he | ⟨i, ws, ha, he⟩
  · rw [exec_sendByte_waits hi htx hp hu] at he
    cases he
    exact .inl (by simp [hi, hp])
  · by_cases hr : i = .reset
    · subst hr
      exact .inr ⟨{ s with sched := ws }, rfl, rfl, exec_reset_next.1 he⟩
    · have hmode := exec_sameMode (s := { s with sched := ws }) hi hr he
      obtain ⟨hheld, htail, hphase, hret, hdel, hdata⟩ := exec_other_keeps_consumer ha hr he
      exact .inl ⟨hheld.trans hh, htail, hphase.trans hp, hret, hdel, hdata, hmode.inited.trans hi,
        hmode.txen, hmode.rxen, hmode.rxcie, hmode.gie⟩

/-! ### The hold lifted -/

theorem txPending_iff : s.txPending = true ↔ s.txen = true ∧ s.udre = false := by simp [State.txPending]

/-- A byte that waits for the transmitter waits on after an operation that leaves the data register full; RESET and
TX_DRAIN do not. -/
theorem exec_keeps_txPending (hi : s.inited = true) (hw : s.txPending = true) (h : exec i s = .next t)
    (hu : t.udre ≠ true) : i ≠ .txDrain ∧ t.inited = true ∧ t.txPending = true := by
  obtain ⟨htx, hfull⟩ := txPending_iff.1 hw
  have hr : i ≠ .reset := by
    rintro rfl
    obtain rfl := exec_reset_next.1 h
    exact hu rfl
  have hd : i ≠ .txDrain := by
    rintro rfl
    cases (exec_txDrain_latches htx hfull).symm.trans h
    exact hu rfl
  have hmode := exec_sameMode hi hr h
  exact ⟨hd, hmode.inited.trans hi, txPending_iff.2 ⟨hmode.txen.trans htx, Bool.eq_false_iff.2 hu⟩⟩

/-- R152, R206: a transmitter that is not stalled empties the data register. -/
theorem Run.udre_of_fairTxDrain {r : Run} {n : Nat} (hv : r.valid) (hf : r.fairTxDrain)
    (hi : (r.state n).inited = true) (hw : (r.state n).txPending = true) :
    ∃ m, n < m ∧ (r.state m).udre = true :=
  Run.progress (P := fun s => s.inited = true ∧ s.txPending = true) (goal := fun s => s.udre = true) hv hf
    (fun _ hP => hP.2) (fun _ _ hP => hP) (fun _ _ _ hP => exec_keeps_txPending hP.1 hP.2) ⟨hi, hw⟩

/-- It is the call's own turn where the schedule offers no word of another agent: at its head once the data
register is empty, anywhere while it is full (R151). -/
theorem step_of_held_alone (hc : s.cfg.wf = true) (hh : s.held = some b)
    (hnone : (if s.udre then headOther s.sched else takeOther s.sched) = none) :
    step s = exec (.sendByte b) s := by
  apply step_of_fetch_run
  rw [fetch_of_held_some hc hh, State.fetchHeld, hnone]

theorem headOther_of_consumer {w : Cmd} {ws : List Cmd} (hd : decode w = .ok i)
    (ha : agentOf i = .consumer) : headOther (w :: ws) = none := by
  simp [headOther, otherAgents, hd, ha]

/-- Settles O40: a fair transmitter drains, and then the head of the schedule says whose turn it is. -/
theorem holdIsLiftedByTheDrain : Obligations.HoldIsLiftedByTheDrain := by
  refine ⟨fun _ _ => Run.udre_of_fairTxDrain, fun s b hc hh hu hi htx hp => ?_⟩
  have hturn (hnone : headOther s.sched = none) :
      step s = .next { s with txData := b, udre := false, held := none } :=
    (step_of_held_alone hc hh ((if_pos hu).trans hnone)).trans (exec_sendByte_writes hi htx hp hu)
  refine ⟨fun hs => hturn ?_, fun w ws i hs hd ha => hturn ?_, fun w ws i hs hd ha => ?_⟩
  · rw [hs, headOther]
  · rw [hs, headOther_of_consumer hd ha]
  · exact stepRunsTheDecodedInstruction s w ws i hc (.inr ha) hs hd

/-! ### The hang -/

theorem run_of_fixed (h : step s = .next s) (n : Nat) : Host.Core.run core n s = .next s := by
  induction n with
  | zero => exact run_zero s
  | succ n ih => rw [run_next n h, ih]

/-- Settles O41: no other agent has a word left, so the call is taken up again, and waits as before. -/
theorem stalledTransmitterHangs : Obligations.StalledTransmitterHangs := by
  intro s b n hc hh hu hi htx hp hw
  refine run_of_fixed ?_ n
  rw [step_of_held_alone hc hh ((if_neg (by simp [hu])).trans (takeOther_none hw)),
    exec_sendByte_waits hi htx hp hu, ← hh]

end Sys2Proof.Machine
end

/-! The family of spec/60_exceptions.md: the steps that change nothing, and the interrupt's entry, return and
progress. -/

section

namespace Sys2Proof.Machine

variable {s t : State} {i : Instr}

/-! ### Where nothing changes -/

/-- With no call waiting, an empty schedule offers no step (R167). -/
theorem step_of_sched_nil (hc : s.cfg.wf = true) (hh : s.held = none) (hs : s.sched = []) :
    step s = .next s := by
  have hidle : s.fetch = .idle := by rw [fetch_of_held_none hc hh, State.fetchWord, hs]
  simp only [step, hidle]

/-- Settles O7: the fetch finds nothing, the byte is not seen, and there is nothing to latch. -/
theorem whereThereIsNoStepNothingChanges : Obligations.WhereThereIsNoStepNothingChanges := fun _ =>
  ⟨step_of_sched_nil, fun _ hoff => exec_rxArrive_next.2 (.inl ⟨hoff, rfl⟩),
    fun hnothing => exec_txDrain_next.2 (.inr ⟨hnothing, rfl⟩)⟩

/-- Settles O24: the hook returns with the `gie` it was entered with, where it is entered at all. -/
theorem isrTxcChangesNothing : Obligations.IsrTxcChangesNothing :=
  ⟨rfl, rfl, fun _ => exec_isrTxc_next.2 rfl⟩

/-! ### Interrupt entry and return -/

/-- The handler is a push between interrupt entry and return, the data register read first (R103, R168, R169). -/
theorem exec_isrRxc_push (h : exec .isrRxc s = .next t) :
    ∃ u, s.enterInterrupt.afterDataRead.push s.rxData = some u ∧ u.gie = false ∧ t = u.returnInterrupt := by
  obtain ⟨-, ⟨hfull, ht⟩ | ⟨hfree, hslot, ht⟩⟩ := exec_isrRxc_next.1 h
  · exact ⟨_, push_full (s := s.enterInterrupt.afterDataRead) hfull s.rxData, rfl, ht⟩
  · exact ⟨_, push_free (s := s.enterInterrupt.afterDataRead) hfree hslot s.rxData, rfl, ht⟩

/-! ### The handler is taken -/

/-- An interrupt that may be taken still may be after an operation that leaves the byte waiting; RESET and the
handler do not. -/
theorem exec_keeps_rxcTaken (hi : s.inited = true) (hw : s.rxcTaken = true) (h : exec i s = .next t)
    (hrxc : t.rxc ≠ false) : i ≠ .isrRxc ∧ t.inited = true ∧ t.rxcTaken = true := by
  obtain ⟨-, hie, hgie⟩ := rxcTaken_iff.1 hw
  have hr : i ≠ .reset := by
    rintro rfl
    obtain rfl := exec_reset_next.1 h
    exact hrxc rfl
  have hn : i ≠ .isrRxc := by
    rintro rfl
    exact hrxc (exec_isrRxc_rxc h)
  have hmode := exec_sameMode hi hr h
  exact ⟨hn, hmode.inited.trans hi, rxcTaken_iff.2
    ⟨Bool.eq_true_of_not_eq_false hrxc, hmode.rxcie.trans hie, hmode.gie.trans hgie⟩⟩

/-- R167, R206: under weak fairness the byte that waits is read. -/
theorem Run.rxc_of_fairIsrRxc {r : Run} {n : Nat} (hv : r.valid) (hf : r.fairIsrRxc)
    (hi : (r.state n).inited = true) (hw : (r.state n).rxcTaken = true) :
    ∃ m, n < m ∧ (r.state m).rxc = false :=
  Run.progress (P := fun s => s.inited = true ∧ s.rxcTaken = true) (goal := fun s => s.rxc = false) hv hf
    (fun _ hP => hP.2) (fun _ _ hP => hP) (fun _ _ _ hP => exec_keeps_rxcTaken hP.1 hP.2) ⟨hi, hw⟩

/-- Settles O25: the handler is one entry and return, and until it is taken the interrupt stays enabled. -/
theorem interruptEntryAndReturn : Obligations.InterruptEntryAndReturn := by
  refine ⟨fun _ => ⟨rfl, rfl⟩, fun s t h => ?_, fun _ _ => Run.rxc_of_fairIsrRxc⟩
  obtain ⟨⟨-, -, hgie⟩, -⟩ := exec_isrRxc_next.1 h
  exact ⟨hgie, exec_isrRxc_push h⟩

end Sys2Proof.Machine
end

/-! The family of spec/70_reset_and_hazards.md: RESET, what is configured once, and the premises under which
no byte is lost. -/

section

namespace Sys2Proof.Machine

variable {s t u : State}

/-! ### Reset and configuration -/

/-- Settles O10: RESET is the power-on state, whatever the state before; there nothing is stored, no init has run
and no call is in progress. -/
theorem resetOperationEffect : Obligations.ResetOperationEffect := by
  refine ⟨rfl, rfl, fun s => ⟨_, _, _, _, _, _, _, rfl⟩, fun s t h => ?_⟩
  obtain rfl := exec_reset_next.1 h
  have hflag : exec .getError s.powerOn = .next (s.powerOn.handBack (.getError s.cfg.errNone)) :=
    exec_getError_next.2 ⟨rfl, rfl⟩
  exact ⟨fun _ => slot?_of_lt (s := s.powerOn), exec_gbCheck_of_not_inited rfl, hflag,
    fun hzero => hzero ▸ hflag⟩

/-- Settles O16: short of RESET no operation leaves the mode, and that includes the format and the divisor. -/
theorem configuredOnlyOnce : Obligations.ConfiguredOnlyOnce := by
  intro i s t hi hr h
  have hmode := exec_sameMode hi hr h
  exact ⟨hmode.inited.trans hi, hmode.rxen, hmode.txen, hmode.rxcie, hmode.frameFmt, hmode.baudH, hmode.baudL,
    hmode.cfg⟩

/-! ### No loss under the launch premises -/

/-- Without a hardware overrun the receiver kept every byte that arrived (R40, R101). -/
theorem State.TraceInv.latched_eq_arrived (h : s.TraceInv) (hov : s.hwOverrun = false) :
    s.obs.latched = s.obs.arrived :=
  h.latchedInOrder.eq_of_length_le (Nat.not_lt.1 fun hlost => by simp [h.lossSeen.2 hlost] at hov)

/-- With nothing dropped, what the receiver kept was stored, in order, but for the byte that waits (R104). -/
theorem State.TraceInv.accepted_append_pending (h : s.TraceInv) (hd : s.obs.dropped = []) :
    s.obs.accepted ++ s.pending = s.obs.latched := by
  have haccounted := h.accounted
  rw [hd, List.append_nil] at haccounted
  exact h.acceptedInOrder.eq_of_length haccounted.length_eq.symm

theorem State.RingInv.lastError_of_dropped_nil (h : s.RingInv) (hd : s.obs.dropped = []) :
    s.lastError = s.cfg.errNone :=
  h.errCode.resolve_right fun hfull => h.overflowSeen.1 hfull hd

/-- With the ring empty and no call in progress everything stored was delivered (R138(c)). -/
theorem State.RingInv.accepted_eq_delivered (h : s.RingInv) (hp : s.cphase = .idle) (he : s.head = s.tail) :
    s.obs.accepted = s.obs.delivered := by
  rw [h.conserved, inflight_of_not_advanced (by simp [hp]), queue_of_empty h.inRange he, List.append_nil,
    List.append_nil]

/-- Settles O56: what arrived is what was stored and the byte that waits; at a quiescent state none waits. -/
theorem noLossUnderTheLaunchPremises : Obligations.NoLossUnderTheLaunchPremises := by
  intro s hring htrace hov hd
  have harrived : s.obs.accepted ++ s.pending = s.obs.arrived :=
    (htrace.accepted_append_pending hd).trans (htrace.latched_eq_arrived hov)
  refine ⟨?_, hring.lastError_of_dropped_nil hd, fun hq he => ?_⟩
  · rw [← harrived]
    exact hring.delivered_prefix.trans (List.prefix_append _ _)
  · rw [← harrived, pending_of_not_rxc hq.noByteWaits, List.append_nil,
      hring.accepted_eq_delivered hq.noCall he]

/-! ### A consumer that keeps up -/

/-- A receiver ready for the next byte, and a consumer that has fetched every byte before it (E4). -/
structure State.CaughtUp (s : State) : Prop where
  receiving : s.Receiving
  inited : s.inited = true
  noCall : s.cphase = .idle
  empty : s.head = s.tail

/-- What bytes `bs` do that are each fetched before the next arrives (E4): all are delivered and handed back, and
nothing is lost. -/
structure State.KeptUp (s : State) (bs : List Byte) (t : State) : Prop where
  delivered : t.obs.delivered = s.obs.delivered ++ bs
  arrived : t.obs.arrived = s.obs.arrived ++ bs
  returned : t.returned = s.returned ++ bs.map .getByte
  dropped : t.obs.dropped = s.obs.dropped
  lastError : t.lastError = s.lastError
  hwOverrun : t.hwOverrun = s.hwOverrun

theorem State.KeptUp.nil (s : State) : s.KeptUp [] s := by
  constructor <;> simp

theorem State.KeptUp.append {bs cs : List Byte} (h : s.KeptUp bs u) (h' : u.KeptUp cs t) :
    s.KeptUp (bs ++ cs) t := by
  constructor
  · rw [h'.delivered, h.delivered, List.append_assoc]
  · rw [h'.arrived, h.arrived, List.append_assoc]
  · rw [h'.returned, h.returned, List.map_append, List.append_assoc]
  · rw [h'.dropped, h.dropped]
  · rw [h'.lastError, h.lastError]
  · rw [h'.hwOverrun, h.hwOverrun]

/-- An empty ring has room for a byte, whatever the capacity (R9: `2 <= N`). -/
theorem State.CaughtUp.room_pos (hs : s.CaughtUp) : 1 ≤ s.room := by
  have hN := capacity_ge hs.receiving.inRange.cfgWf
  rw [State.room, (isEmpty_iff hs.receiving.inRange).1 (isEmpty_eq_true.2 hs.empty.symm)]
  omega

theorem runAll_append_of_next {is js : List Instr} (h : runAll is s = .next t) :
    runAll (is ++ js) s = runAll js t := by
  rw [runAll_append, h]

theorem runAll_singleton (i : Instr) (s : State) : runAll [i] s = exec i s := by
  rw [runAll]
  cases exec i s <;> rfl

/-- The arrival of a byte and its handler leave the consumer where it is (R101, R103). -/
theorem produce_keeps_consumer {b : Byte} (harmed : s.Armed) (hi : s.inited = true)
    (h : runAll [.rxArrive b, .isrRxc] s = .next t) :
    t.inited = true ∧ t.cphase = s.cphase ∧ t.returned = s.returned ∧ t.obs.delivered = s.obs.delivered := by
  have harrive : exec (.rxArrive b) s = .next (s.latch b) :=
    exec_rxArrive_next.2 (.inr (.inl ⟨harmed.rxen, harmed.ready, rfl⟩))
  have hhandle : exec .isrRxc (s.latch b) = .next t := by
    rwa [runAll_cons_of_next harrive, runAll_singleton] at h
  have hmode := exec_sameMode (s := s.latch b) (i := .isrRxc) hi nofun hhandle
  obtain ⟨-, -, hphase, hret, hdel, -⟩ := exec_other_keeps_consumer (i := .isrRxc) nofun nofun hhandle
  exact ⟨hmode.inited.trans hi, hphase, hret, hdel⟩

/-- Once `b`, the only byte queued, was fetched: it is delivered and handed back, and `tail` has caught up. -/
def State.fetched (s : State) (b : Byte) : State :=
  { s with
    tail := s.head, obs := { s.obs with delivered := s.obs.delivered ++ [b] },
    returned := s.returned ++ [.getByte b] }

/-- The call takes the one byte there is, and the successor of `tail` is then `head` (R117, R125). -/
theorem runAll_fetch_one {b : Byte} (hR : s.InRange) (hi : s.inited = true) (hp : s.cphase = .idle)
    (hq : s.queue = [b]) : runAll [.gbCheck, .gbAdvance, .gbRead] s = .next (s.fetched b) := by
  have hcount : s.count = 1 := by rw [← queue_length, hq]; rfl
  have hne : s.isEmpty = false := Bool.eq_false_iff.2 fun he => by simp [(isEmpty_iff hR).1 he] at hcount
  obtain ⟨v, t, -, holdest, hcall, ht, hleft, -⟩ := (getByteCallEffect s hR hi hp).1 hcount.ge
  obtain rfl : b = v := by simpa [hq] using holdest
  have hRt : t.InRange := by
    subst ht
    exact ⟨hR.cfgWf, hR.headIn, indexSucc_in_ring hR.cfgWf _⟩
  have hcaught : t.tail = t.head := isEmpty_eq_true.1 ((isEmpty_iff hRt).2 (by omega))
  subst ht
  rw [← callGetByte_of_not_isEmpty hne, hcall, State.fetched, ← hcaught]

/-- One byte arrives, is stored and is fetched: it is the only one queued, so it is the one handed back. -/
theorem exists_keptUp_one (hs : s.CaughtUp) (b : Byte) :
    ∃ t, runAll [.rxArrive b, .isrRxc, .gbCheck, .gbAdvance, .gbRead] s = .next t ∧ s.KeptUp [b] t ∧
      t.CaughtUp := by
  obtain ⟨u, hrun, hone, hR, hst, harmed⟩ := exists_produced_one hs.receiving b
  obtain ⟨hi, hphase, hret, hdel⟩ := produce_keeps_consumer hs.receiving.armed hs.inited hrun
  have hp := hphase.trans hs.noCall
  have hroom : [b].length ≤ s.room := hs.room_pos
  have hqueue : u.queue = [b] := by
    rw [hone.queue, queue_of_empty hs.receiving.inRange hs.empty, List.take_of_length_le hroom, List.nil_append]
  refine ⟨u.fetched b, ?_, ?_, ?_⟩
  · exact (runAll_append_of_next hrun).trans (runAll_fetch_one hR hi hp hqueue)
  · constructor
    · exact congrArg (· ++ [b]) hdel
    · exact hone.arrived
    · exact congrArg (· ++ [.getByte b]) hret
    · exact hone.dropped.trans (by rw [List.drop_eq_nil_of_le hroom, List.append_nil])
    · exact hone.lastError.trans (if_pos hroom)
    · exact hone.hwOverrun
  · exact ⟨⟨⟨hR.cfgWf, hR.headIn, hR.headIn⟩, ⟨hst.canonical, hst.inRing⟩,
      ⟨harmed.rxen, harmed.rxcie, harmed.gie, harmed.ready⟩⟩, hi, hp, rfl⟩

theorem exists_keptUp (hs : s.CaughtUp) (bs : List Byte) :
    ∃ t, runAll (keepUpSteps bs) s = .next t ∧ s.KeptUp bs t ∧ t.CaughtUp := by
  induction bs generalizing s with
  | nil => exact ⟨s, rfl, .nil s, hs⟩
  | cons b bs ih =>
    obtain ⟨u, hrun, hone, hu⟩ := exists_keptUp_one hs b
    obtain ⟨t, hrest, hmore, ht⟩ := ih hu
    exact ⟨t, (runAll_append_of_next hrun).trans hrest, hone.append hmore, ht⟩

/-- Settles O60: each byte finds the ring empty, and its fetch leaves it so for the next. -/
theorem keepingUpLosesNothing : Obligations.KeepingUpLosesNothing := by
  intro s bs hR hst harmed hi hp he
  obtain ⟨t, hrun, hkept, ht⟩ := exists_keptUp ⟨⟨hR, hst, harmed⟩, hi, hp, he⟩ bs
  exact ⟨t, hrun, hkept.delivered, hkept.arrived, hkept.returned, hkept.dropped, hkept.lastError,
    hkept.hwOverrun, ht.empty⟩

end Sys2Proof.Machine
end
